-- ==== Sys2Proof/Word.lean ====
section
/-! DEFINITION. The word types of the hub: registers are 32 bits wide, packet and engine words 16 bits,
storage is byte addressed, TIME instants are kept in units of 2^-40 ns modulo 2^32 ns (spec/00, R51, R80). -/

namespace Sys2Proof

/-- A register or fabric word (spec/00, Numbers and units). -/
abbrev Word := BitVec 32
/-- A packet word (R318) or an engine word (R237). -/
abbrev Half := BitVec 16
/-- A byte of storage. -/
abbrev Byte := BitVec 8
/-- An instant in units of 2^-40 ns, modulo 2^32 ns (R80). -/
abbrev Instant := BitVec 72

end Sys2Proof
end

