-- ==== Sys2Proof/Syntax.lean ====
section
/-! DEFINITION. The commands of the hub: one constructor of `Instr` for each row of the opcode table, and the plain data the
commands carry. -/

namespace Sys2Proof

/-- Who makes a fabric access (chapter "The fabric" before R27): the Col pair, a Dale engine, the debug port, or the
record path with its delivery engines. -/
inductive Initiator where
  | col
  | eng (n : Nat)
  | debug
  | path
deriving DecidableEq, Repr

/-- A 128-bit record by its fields (R50). -/
structure Record where
  ts  : Word
  pos : Half
  sid : Byte
  tsf : BitVec 4
  flg : BitVec 4
  pay : BitVec 64
deriving DecidableEq, Repr

/-- How the payload conversion takes a sample (R56, R57, R65, R191). -/
inductive SampleKind where
  | slice
  | port (zeroExt : Bool)
  | pin
deriving DecidableEq, Repr

/-- What capture, decimation or resampling hands the stamp unit: an instant and a sample (R16, R80). -/
structure Sample where
  /-- the computed instant before rounding -/
  instant : Instant
  value   : BitVec 64
  sat     : Bool
  kind    : SampleKind
  /-- status field of the port frame (R56) -/
  status  : Half
  /-- the stream's exact output period in 2^-40 ns, where R87 states one -/
  period  : Option Nat
  /-- position of a lattice point (R140) -/
  pos     : Option Half
  /-- a pass record sample of R142 -/
  pass    : Bool
  /-- samples are missing before this one (R54) -/
  gap     : Bool
  /-- this sample starts a new record (R59) -/
  fresh   : Bool
  /-- of a lattice point: the grid spacing, and the USER_LAT it was evaluated with (R58, R139) -/
  grid    : Nat := 0
  lat     : Option Word := none
deriving DecidableEq, Repr

/-- A read by its address and how many bytes it asks for, which R30 reads again. -/
structure ReadSpan where
  addr  : Nat
  bytes : Nat
deriving DecidableEq, Repr

/-- The word that failed parity at its consumer (R29). -/
inductive ParityWord where
  | record (sid : Nat)
  | regWrite
  /-- found by the fetch or a load of the engine the site names (R241) -/
  | fetch
  | load
  /-- the item at a place of the event queue the site names, which fails when a pop reads its stage (R223) -/
  | stage (place : Nat)
  /-- an SRAM error of the bank the site names that SECDED corrected -/
  | corrected
  | other
deriving DecidableEq, Repr

/-- Where a word failed parity: the consumer's PARITY_ERR register, and the type code and number a HEALTH event
names (R438). -/
structure ParitySite where
  reg  : Nat
  ty   : Nat
  inst : Nat
  word : ParityWord
deriving DecidableEq, Repr

/-- A serial port or a two-wire port. -/
inductive PortId where
  | sp (n : Nat)
  | tw (n : Nat)
deriving DecidableEq, Repr

/-- How a two-wire controller frame went on the wire (R164, R166). -/
inductive TwResult where
  | done (pec : Option Byte)
  | nack
deriving DecidableEq, Repr

/-- One attempt of a two-wire transaction: the PORT cycles of its START and of the START that opened its read, its
outcome and the bytes read. -/
structure TwFrame where
  start  : Nat
  rstart : Nat
  result : TwResult
  bytes  : List Byte
deriving DecidableEq, Repr

/-- Where arbitration was lost (R170): in the hub's NACK after the last read byte, with the bytes read and the PEC byte if the format has one, or
earlier. -/
inductive ArbPoint where
  | early
  | lastNack (start rstart : Nat) (bytes : List Byte) (pec : Option Byte)
deriving DecidableEq, Repr

/-- A window edge as a recogniser receives it: the TIME value of the firing tick, the entry's position and the
entry's domain code (R205). -/
structure WinEdge where
  tick : BitVec 64
  pos  : Nat
  dom  : Nat
deriving DecidableEq, Repr

/-- The third opinion of a vote (R286). -/
inductive Opinion where
  | live
  | shadow
  | neither
deriving DecidableEq, Repr

/-- A physical unit: Layout Table type code and physical number. -/
structure UnitId where
  ty   : Nat
  phys : Nat
deriving DecidableEq, Repr

/-- A received command packet, its opcode being the command's own (R318): transport index (R336), flags, tag and
parameter words. -/
structure Pkt where
  t      : Nat
  flags  : Byte
  tag    : Byte
  params : List Half
deriving DecidableEq, Repr

/-- A UDP datagram for the management port (R334). -/
structure MgmtDg where
  v6       : Bool
  srcIp    : BitVec 128
  srcPort  : Half
  /-- the datagram is addressed to the hub's own IP address -/
  toHub    : Bool
  dstPort  : Half
  fragment : Bool
  bytes    : List Byte
deriving DecidableEq, Repr

/-- What the lane shows of the link: PCS synchronisation and the in-band link word (R356, R357). -/
structure LinkWord where
  sync : Bool
  up   : Bool
  gig  : Bool
  full : Bool
deriving DecidableEq, Repr

/-- Grandmaster data an Announce carries (R363). -/
structure GmData where
  gmId         : BitVec 64
  clockClass   : Byte
  stepsRemoved : Half
deriving DecidableEq, Repr

/-- PTP message kinds (R363). -/
inductive PtpKind where
  | sync
  | followUp
  | delayReq
  | delayResp
  | pdelayReq
  | pdelayResp
  | pdelayRespFu
  | announce (g : GmData)
  | unsupported
deriving DecidableEq, Repr

/-- What a received frame carries, as far as the hub serves it (R357, R358). -/
inductive RxBody where
  | pause (quanta : Half)
  | ptp (kind : PtpKind) (major domain : Nat)
  | arp (ip : Word) (askerMac : BitVec 48) (askerIp : Word)
  | neighbour (ip : BitVec 128) (askerMac : BitVec 48) (askerIp : BitVec 128)
  | mgmt (d : MgmtDg)
  | other
deriving DecidableEq, Repr

/-- A frame received by a MAC with its capture at the stamp point (R357, R360). -/
structure RxFrame where
  len     : Nat
  fcsOk   : Bool
  dst     : BitVec 48
  capTs   : Word
  capFrac : BitVec 4
  body    : RxBody
deriving DecidableEq, Repr

/-- A Sync received on the SLAVE port, with what the profile gives for it (R367): capture, preciseOriginTimestamp,
corrections in 2^-16 ns, mean link delay in 1/16 ns and the log2 of the Sync interval in s. -/
structure SyncObs where
  capTs    : Word
  capFrac  : BitVec 4
  originS  : Nat
  originNs : Nat
  corr     : Int
  mld      : Word
  logSync  : Int
deriving DecidableEq, Repr

/-- What the checks of R382 find in an image header and body. -/
structure ImageView where
  wellFormed  : Bool
  version     : Half
  enc         : Bool
  revokeLower : Bool
  slot        : Nat
  length      : Nat
  arb         : BitVec 64
  keyHash     : BitVec 256
  sigOk       : Bool
  gcmOk       : Bool
  dbgHash     : BitVec 256
  taskHash    : BitVec 256
deriving DecidableEq, Repr

/-- What the boot ROM reads of one image slot in one mode: no MAGIC, or a header with its image (R402). -/
inductive FlashRead where
  | noHeader
  | header (v : ImageView)
deriving DecidableEq, Repr

/-- What a boot meets outside the hub's registers: TIME ticks from the first lock to READY, ms from RESET_N release,
whether an OTP word failed, measured DSC round trips in 1/256 ns (none: no edges), BIST outcomes, the selector
records read in each mode, and the four header reads (slot 0 in 8D and 1S, slot 1 in 8D and 1S). -/
structure BootInput where
  lockTicks  : Nat
  readyMs    : Half
  otpBad     : Bool
  roundTrip  : List (Option Nat)
  badUnits   : List UnitId
  badRows    : List (Nat × Nat)
  badCols    : List (Nat × Nat)
  colRamBad  : Bool
  selectors8 : List (Option (Nat × Nat))
  selectors1 : List (Option (Nat × Nat))
  slot0      : FlashRead × FlashRead
  slot1      : FlashRead × FlashRead
deriving DecidableEq, Repr

/-- The rails the hub watches (R421). -/
inductive Rail where
  | vddioB
  | vddSd
  | vddhSd
  | vddPll
deriving DecidableEq, Repr

/-- The Address group of an instruction's leading bytes (R263). -/
inductive AddrMode where
  | linear
  | ring
  | brev
deriving DecidableEq, Repr

/-- The leading bytes an engine instruction carries besides SVC: guard (polarity and predicate), REP, WIDE and the
Address group (R263). -/
structure Pfx where
  guard : Option (Bool × BitVec 3)
  rep   : Bool
  wide  : Bool
  addr  : AddrMode
deriving DecidableEq, Repr

/-- No leading byte. -/
def Pfx.none : Pfx := { guard := Option.none, rep := false, wide := false, addr := .linear }

/-- Operand byte m (R268). -/
structure MByte where
  n   : BitVec 3
  inc : Bool
  km1 : BitVec 3
deriving DecidableEq, Repr

/-- A short or long operand: d8 or d16, rel8 or rel16 (R268). -/
inductive Disp where
  | short (v : Byte)
  | long (v : Half)
deriving DecidableEq, Repr

/-- Operand byte c (R268, R270). -/
structure CByte where
  d    : BitVec 3
  cond : BitVec 4
deriving DecidableEq, Repr

/-- The two operand bytes of PLOG (R272). -/
structure PLogic where
  d  : BitVec 3
  op : BitVec 2
  x  : BitVec 3
  y  : BitVec 3
deriving DecidableEq, Repr

/-- The commands of the hub, one constructor for each row of the opcode table, the engines' instructions last. An engine is named 0 to
71, and 72 names the Col pair. -/
inductive Instr where
  /-- REGISTER_WRITE (R7). -/
  | registerWrite (by_ : Initiator) (addr bytes : Nat) (val : Word)
  /-- RC_READ (R7). -/
  | rcRead (by_ : Initiator) (addr bytes : Nat)
  /-- COUNTER_LOW_READ (R13). -/
  | counterLowRead (by_ : Initiator) (addr : Nat)
  /-- FABRIC_PARITY_FAIL (R29). -/
  | fabricParityFail (c : ParitySite)
  /-- READ_REPLY_PARITY_FAIL (R30). -/
  | readReplyParityFail (by_ : Initiator) (addr : ReadSpan) (again : Bool)
  /-- REFCLK_LOSS (R26). -/
  | refclkLoss
  /-- TIME_PLL_LOCK (R26). -/
  | timePllLock
  /-- LAYOUT_TABLE_WRITE (R36). -/
  | layoutTableWrite (by_ : Initiator) (addr : Nat) (val : Word)
  /-- LAYOUT_TABLE_SWAP (R47). -/
  | layoutTableSwap
  /-- RECORD_FORM (R80). -/
  | recordForm (sid : Nat) (smp : Sample)
  /-- DISPATCH (R254). -/
  | dispatch (sid : Nat)
  /-- RECORD_STORE (R229). -/
  | recordStore (sid : Nat)
  /-- STREAM_DRAIN_COMPLETE (R66). -/
  | streamDrainComplete (sid : Nat)
  /-- CTX_START (R65). -/
  | ctxStart (sid : Nat)
  /-- CTX_STOP (R66). -/
  | ctxStop (sid : Nat)
  /-- CTX_COMMIT (R64). -/
  | ctxCommit (sid : Nat)
  /-- WRAP (R74). -/
  | wrap
  /-- HALFWRAP (R74). -/
  | halfwrap
  /-- EPOCH_REARM (R78). -/
  | epochRearm
  /-- TB_ARM (R75). -/
  | tbArm
  /-- TB_DISARM (R75). -/
  | tbDisarm
  /-- TB_REPAIR (R77). -/
  | tbRepair
  /-- TB_COMMIT (R72). -/
  | tbCommit
  /-- TINC_APPLY (R72). -/
  | tincApply
  /-- TS_SET (R73). -/
  | tsSet (ts : Word)
  /-- SCHEDULE_EPOCH (R183). -/
  | scheduleEpoch
  /-- TRG_PIN_EDGE (R187). -/
  | trgPinEdge (pin : Nat) (level : Bool) (code : BitVec 4)
  /-- ANG_PIN_EDGE (R90). -/
  | angPinEdge (pin : Nat) (level : Bool) (code : BitVec 4)
  /-- CRANK_STALL (R94). -/
  | crankStall
  /-- CRK_ENABLE (R91). -/
  | crkEnable (en : Bool)
  /-- CRK_RESYNC (R91). -/
  | crkResync
  /-- DIST_STALL (R100). -/
  | distStall (d : Nat)
  /-- DST_ENABLE (R101). -/
  | dstEnable (d : Nat) (en : Bool)
  /-- DST_ZERO (R99). -/
  | dstZero (d : Nat)
  /-- ASE_POS_WRITE (R103). -/
  | asePosWrite (i : Nat) (val : Word)
  /-- ASE_ACTION_WRITE (R103). -/
  | aseActionWrite (i : Nat) (val : Word)
  /-- ASE_FIRE (R104). -/
  | aseFire (i : Nat)
  /-- TOUT_PULSE_START (R109). -/
  | toutPulseStart (pin : Nat)
  /-- TOUT_PULSE_END (R109). -/
  | toutPulseEnd (pin : Nat)
  /-- AST_ENABLE (R440). -/
  | astEnable
  /-- DISARM_ALL (R440). -/
  | disarmAll
  /-- ANG_WAKE (R110). -/
  | angWake
  /-- HB_GROUP_ENABLE (R114). -/
  | hbGroupEnable (mask : BitVec 4)
  /-- HB_GROUP_STOP (R115). -/
  | hbGroupStop (mask : BitVec 4)
  /-- BANK_H_OUTPUT (R112). -/
  | bankHOutput (n : Nat) (bits : List Bool)
  /-- BANK_M_OUTPUT (R120). -/
  | bankMOutput (n : Nat)
  /-- HCH_COMMIT (R126). -/
  | hchCommit (n : Nat)
  /-- MCH_COMMIT (R126). -/
  | mchCommit (n : Nat)
  /-- MB_SYNC (R124). -/
  | mbSync
  /-- SYNC_N_FALL (R124). -/
  | syncNFall
  /-- GRID_POINT (R140). -/
  | gridPoint (n : Nat)
  /-- RS_COMMIT (R148). -/
  | rsCommit (n : Nat)
  /-- ROM_WRITE (R130). -/
  | romWrite (by_ : Initiator) (addr : Nat) (val : Word)
  /-- SP_ENABLE (R161). -/
  | spEnable (n : Nat) (en : Bool)
  /-- SP_COMMIT (R156). -/
  | spCommit (n : Nat)
  /-- SP_ABORT (R158). -/
  | spAbort (n : Nat)
  /-- PORT_START_TRANSACTION (R189). -/
  | portStartTransaction (p : PortId)
  /-- SP_FRAME_END (R157). -/
  | spFrameEnd (n : Nat) (words : List Word)
  /-- SP_RETRY_WAIT_END (R157). -/
  | spRetryWaitEnd (n : Nat)
  /-- DQS_TIMEOUT (R152). -/
  | dqsTimeout (n : Nat)
  /-- TRANSACTION_COMPLETE (R158). -/
  | transactionComplete (p : PortId)
  /-- TW_CTRL_ENABLE (R179). -/
  | twCtrlEnable (n : Nat) (en : Bool)
  /-- TGT_ENABLE (R172). -/
  | tgtEnable (n : Nat) (en : Bool)
  /-- TW_COMMIT (R163). -/
  | twCommit (n : Nat)
  /-- TW_ABORT (R167). -/
  | twAbort (n : Nat)
  /-- BUSCLR (R171). -/
  | busclr (n : Nat) (sdaHigh : Bool)
  /-- AUTO_BUS_CLEAR (R171). -/
  | autoBusClear (n : Nat) (sdaHigh : Bool)
  /-- TW_FRAME_END (R166). -/
  | twFrameEnd (n : Nat) (f : TwFrame)
  /-- ARBITRATION_LOST (R170). -/
  | arbitrationLost (n : Nat) (at_ : ArbPoint)
  /-- TW_SCL_TIMEOUT (R170). -/
  | twSclTimeout (n : Nat)
  /-- BUS_FREE (R169). -/
  | busFree (n : Nat)
  /-- TARGET_ADDRESS_MATCH (R172). -/
  | targetAddressMatch (n : Nat) (addr : BitVec 7) (rd : Bool) (code : Option Byte)
  /-- CMD_PUT (R331). -/
  | cmdPut (n : Nat) (raw : List Byte)
  /-- RSP_GET (R332). -/
  | rspGet (n : Nat) (clean : Bool)
  /-- HUB_STATUS (R333). -/
  | hubStatus (n : Nat)
  /-- EQ_PEEK (R227). -/
  | eqPeek (n : Nat)
  /-- TW_LTOL_SET (R333). -/
  | twLtolSet (n : Nat) (raw : List Byte)
  /-- TARGET_TIMEOUT (R175). -/
  | targetTimeout (n : Nat)
  /-- CMD_PUT_TIMEOUT (R331). -/
  | cmdPutTimeout (n : Nat)
  /-- TX_ENABLE (R182). -/
  | txEnable (i : Nat) (en : Bool)
  /-- TX_KICK (R188). -/
  | txKick (i : Nat)
  /-- TIME_TRIGGER_DUE (R185). -/
  | timeTriggerDue (i : Nat)
  /-- BANK_M_SPACING_END (R192). -/
  | bankMSpacingEnd (i : Nat)
  /-- SCH_COMMIT (R183). -/
  | schCommit
  /-- PROBE_ENABLE (R197). -/
  | probeEnable (j : Nat) (en : Bool)
  /-- PROBE_RUN (R196). -/
  | probeRun (j : Nat) (code : Nat) (id : Word)
  /-- REC_SAMPLE (R203). -/
  | recSample (r : Nat) (rec : Record)
  /-- WIN_OPEN (R207). -/
  | winOpen (r : Nat) (edge : WinEdge)
  /-- WIN_CLOSE (R207). -/
  | winClose (r : Nat) (edge : WinEdge)
  /-- SETTLE_TIMEOUT (R206). -/
  | settleTimeout (r : Nat)
  /-- COMBINE_WIN_EXPIRE (R210). -/
  | combineWinExpire (r k : Nat)
  /-- REC_ENABLE (R216). -/
  | recEnable (r : Nat) (en : Bool)
  /-- REC_COMMIT (R216). -/
  | recCommit (r : Nat)
  /-- EQ_INSERT (R219). -/
  | eqInsert (q : Nat) (rec : Record)
  /-- EQ_PUSH (R225). -/
  | eqPush (q bits : Nat) (item : BitVec 128)
  /-- EQ_HEAD_POP (R220). -/
  | eqHeadPop (q : Nat) (badParity : Bool)
  /-- FLUSH (R224). -/
  | flush (q : Nat)
  /-- RING_ENABLE (R228). -/
  | ringEnable (n : Nat)
  /-- RING_DISABLE (R234). -/
  | ringDisable (n : Nat)
  /-- RELEASE (R233). -/
  | release (n : Nat)
  /-- RD_IDX_WRITE (R230). -/
  | rdIdxWrite (n : Nat) (val : Word)
  /-- DATAGRAM_FORM (R231). -/
  | datagramForm (n : Nat) (badWords : List Nat)
  /-- FLUSH_MS_EXPIRE (R231). -/
  | flushMsExpire (n : Nat)
  /-- TASK_RUN_START (R254). -/
  | taskRunStart (e : Nat)
  /-- INTERRUPT_ENTRY (R252). -/
  | interruptEntry (e : Nat)
  /-- BUDGET_EXCEEDED (R256). -/
  | budgetExceeded (e : Nat)
  /-- READ_DATA_ARRIVAL (R246). -/
  | readDataArrival (e : Nat) (w : BitVec 2) (bad : Bool)
  /-- ENG_RUN (R259). -/
  | engRun (e : Nat)
  /-- ENG_RESET (R259). -/
  | engReset (e : Nat)
  /-- ENG_HALT (R259). -/
  | engHalt (e : Nat)
  /-- ENG_RESUME (R259). -/
  | engResume (e : Nat)
  /-- ENG_SWI (R258). -/
  | engSwi (e : Nat)
  /-- ENG_SERVICE (R258). -/
  | engService (by_ : Initiator) (e : Nat) (svc : Bool)
  /-- CODE_RAM_WRITE (R243). -/
  | codeRamWrite (by_ : Initiator) (addr : Nat) (val : Word)
  /-- LOCKSTEP_MISMATCH (R260). -/
  | lockstepMismatch
  /-- DWELL_START (R282). -/
  | dwellStart (k : Nat)
  /-- DWELL_END (R282). -/
  | dwellEnd (k : Nat)
  /-- SHADOW_COPY_DONE (R284). -/
  | shadowCopyDone
  /-- SHADOW_MISMATCH (R285). -/
  | shadowMismatch (k : Nat) (stage : BitVec 4)
  /-- VOTE (R286). -/
  | vote (k : Nat) (op : Opinion)
  /-- VOTE_TIMEOUT (R286). -/
  | voteTimeout (k : Nat)
  /-- FIELD_REPAIR_WRITE (R281). -/
  | fieldRepairWrite (readsBack : Bool)
  /-- SCHEDULING_CHANGE (R292). -/
  | schedulingChange
  /-- RP_NEXT (R297). -/
  | rpNext
  /-- PLANNER_CYCLE (R299). -/
  | plannerCycle (failed : List UnitId)
  /-- GUARD_STEP (R301). -/
  | guardStep (c : Nat)
  /-- MONITOR_SAMPLE (R298). -/
  | monitorSample (slack : List (BitVec 16)) (temp : List (BitVec 12))
  /-- VMIN_PROBE (R298). -/
  | vminProbe (b : Nat) (mv : BitVec 10)
  /-- THERMAL_HISTOGRAM_TICK (R298). -/
  | thermalHistogramTick
  /-- AVS_PGOOD_HIGH (R303). -/
  | avsPgoodHigh
  /-- AVS_FAULT (R303). -/
  | avsFault
  /-- CLR_AVS (R303). -/
  | clrAvs
  /-- ENG_PLL_RELOCK (R304). -/
  | engPllRelock
  /-- GOVERNOR_EVALUATE (R307). -/
  | governorEvaluate
  /-- POWER_ENTRY (R313). -/
  | powerEntry
  /-- POWER_EXIT (R315). -/
  | powerExit
  /-- WAKE_PIN (R309). -/
  | wakePin (n : Nat) (rise : Bool)
  /-- HOST_LINK_WAKE (R309). -/
  | hostLinkWake
  /-- ALARM (R309). -/
  | alarm
  /-- WAKE_HOLD_EXPIRE (R311). -/
  | wakeHoldExpire
  /-- HL_SELECT (R325). -/
  | hlSelect (sckHigh : Bool) (header : Half)
  /-- HL_DESELECT (R328). -/
  | hlDeselect
  /-- PACKET_RECEIVE (R321). -/
  | packetReceive (t : Nat) (words : List Half)
  /-- REPLY_TAKEN (R322). -/
  | replyTaken (t : Nat)
  /-- MGMT_DATAGRAM (R334). -/
  | mgmtDatagram (m : Nat) (dg : MgmtDg)
  /-- UDP_SLOT_EXPIRE (R335). -/
  | udpSlotExpire (slot : Nat)
  /-- PING (R344). -/
  | ping (p : Pkt)
  /-- TABLE_READ (R344). -/
  | tableRead (p : Pkt)
  /-- RESET (R344). -/
  | reset (p : Pkt)
  /-- RESET_CAUSE (R344). -/
  | resetCause (p : Pkt)
  /-- IRQ_STATUS (R344). -/
  | irqStatus (p : Pkt)
  /-- SYS_READ (R341). -/
  | sysRead (p : Pkt)
  /-- SYS_WRITE (R341). -/
  | sysWrite (p : Pkt)
  /-- DEVICE_ID (R344). -/
  | deviceId (p : Pkt)
  /-- CTX_READ (R345). -/
  | ctxRead (p : Pkt)
  /-- CTX_WRITE (R345). -/
  | ctxWrite (p : Pkt)
  /-- STREAM_START (R345). -/
  | streamStart (p : Pkt)
  /-- STREAM_STOP (R345). -/
  | streamStop (p : Pkt)
  /-- STREAM_STATES (R345). -/
  | streamStates (p : Pkt)
  /-- BANK_READ (R346). -/
  | bankRead (p : Pkt)
  /-- BANK_WRITE (R346). -/
  | bankWrite (p : Pkt)
  /-- SYNC_COMMAND (R346). -/
  | syncCommand (p : Pkt)
  /-- SCH_READ (R347). -/
  | schRead (p : Pkt)
  /-- SCH_WRITE (R347). -/
  | schWrite (p : Pkt)
  /-- KICK (R347). -/
  | kick (p : Pkt)
  /-- PROBE_STATES (R347). -/
  | probeStates (p : Pkt)
  /-- REC_READ (R348). -/
  | recRead (p : Pkt)
  /-- REC_WRITE (R348). -/
  | recWrite (p : Pkt)
  /-- EQ_POP (R348). -/
  | eqPop (p : Pkt)
  /-- EQ_POST (R348). -/
  | eqPost (p : Pkt)
  /-- RING_READ (R349). -/
  | ringRead (p : Pkt)
  /-- RING_WRITE (R349). -/
  | ringWrite (p : Pkt)
  /-- RING_TAKE (R349). -/
  | ringTake (p : Pkt)
  /-- TN_READ (R350). -/
  | tnRead (p : Pkt)
  /-- TN_WRITE (R350). -/
  | tnWrite (p : Pkt)
  /-- TIME_NOW (R350). -/
  | timeNow (p : Pkt)
  /-- EPOCH_SET (R350). -/
  | epochSet (p : Pkt)
  /-- TINC_SET (R350). -/
  | tincSet (p : Pkt)
  /-- LTOL_SET (R351). -/
  | ltolSet (p : Pkt)
  /-- PWR_READ (R351). -/
  | pwrRead (p : Pkt)
  /-- PWR_WRITE (R351). -/
  | pwrWrite (p : Pkt)
  /-- HLT_READ (R352). -/
  | hltRead (p : Pkt)
  /-- HLT_WRITE (R352). -/
  | hltWrite (p : Pkt)
  /-- AGE_REPORT (R352). -/
  | ageReport (p : Pkt)
  /-- RETIRE (R352). -/
  | retire (p : Pkt)
  /-- RETEST (R352). -/
  | retest (p : Pkt) (passed : Bool)
  /-- SELFTEST (R352). -/
  | selftest (p : Pkt) (failed : List UnitId)
  /-- SEC_STATUS (R353). -/
  | secStatus (p : Pkt)
  /-- DBG_CHALLENGE (R353). -/
  | dbgChallenge (p : Pkt)
  /-- DBG_RESPONSE (R387). -/
  | dbgResponse (p : Pkt)
  /-- DBG_CLOSE (R389). -/
  | dbgClose (p : Pkt)
  /-- LIFECYCLE_SET (R377). -/
  | lifecycleSet (p : Pkt) (readsBack : Bool)
  /-- FW_INFO (R354). -/
  | fwInfo (p : Pkt)
  /-- FW_STAGE (R354). -/
  | fwStage (p : Pkt) (flashOk : Bool)
  /-- FW_COMMIT (R354). -/
  | fwCommit (p : Pkt) (flashOk : Bool)
  /-- TASK_STAGE (R354). -/
  | taskStage (p : Pkt)
  /-- TASK_INSTALL (R354). -/
  | taskInstall (p : Pkt)
  /-- TASK_REMOVE (R354). -/
  | taskRemove (p : Pkt)
  /-- ENG_READ (R354). -/
  | engRead (p : Pkt)
  /-- MEM_READ (R355). -/
  | memRead (p : Pkt)
  /-- MEM_WRITE (R355). -/
  | memWrite (p : Pkt)
  /-- LINK_UP (R356). -/
  | linkUp (m : Nat) (lw : LinkWord)
  /-- LINK_DOWN (R356). -/
  | linkDown (m : Nat)
  /-- FRAME_RECEIVE (R358). -/
  | frameReceive (m : Nat) (f : RxFrame)
  /-- PTP_SYNC_RECEIVE (R367). -/
  | ptpSyncReceive (m : Nat) (sy : SyncObs)
  /-- SERVO_HOLD (R369). -/
  | servoHold
  /-- PTP_MASTER_TX (R363). -/
  | ptpMasterTx (m : Nat) (announce : Bool)
  /-- ONE_STEP_SYNC_TX (R364). -/
  | oneStepSyncTx (m : Nat) (capTs : Word) (capFrac : BitVec 4)
  /-- LPI_ENTER (R359). -/
  | lpiEnter (m : Nat)
  /-- PTP_ENABLE (R375). -/
  | ptpEnable (en : Bool)
  /-- MDIO_GO (R373). -/
  | mdioGo (val : Word)
  /-- MDIO_DONE (R373). -/
  | mdioDone (data : Half) (turnHigh : Bool)
  /-- KEY_STORE_WRITE (R380). -/
  | keyStoreWrite (by_ : Initiator) (addr : Nat) (val : Word)
  /-- ARB_UPDATE (R383). -/
  | arbUpdate (readsBack : List Bool)
  /-- POWER_ON_RESET (R397). -/
  | powerOnReset (aonLost : Bool)
  /-- PIN_RESET (R397). -/
  | pinReset
  /-- WATCHDOG_EXPIRE (R399). -/
  | watchdogExpire
  /-- COMMAND_RESET (R344). -/
  | commandReset
  /-- WDT_KICK (R399). -/
  | wdtKick (by_ : Initiator) (val : Word)
  /-- BOOT (R400). -/
  | boot (b : BootInput)
  /-- BOOT_RETRY (R404). -/
  | bootRetry (b : BootInput)
  /-- SUPPLY_LOW (R421). -/
  | supplyLow (r : Rail)
  /-- SUPPLY_RESTORE (R421). -/
  | supplyRestore (r : Rail)
  /-- XTAL_LOST (R421). -/
  | xtalLost
  /-- XTAL_RETURN (R421). -/
  | xtalReturn
  /-- EQ_ITEM_ELIGIBLE (R226). -/
  | eqItemEligible (q : Nat)
  /-- TW_RETRY_WAIT_END (R166). -/
  | twRetryWaitEnd (n : Nat)
  /-- AVS_SETTLE_END (R303). -/
  | avsSettleEnd
  /-- DELAY_REQUEST_TX (R363). -/
  | delayRequestTx (m : Nat)
  /-- FRAME_TRANSMIT (R370). -/
  | frameTransmit (m : Nat) (capTs : Word) (capFrac : BitVec 4)
  /-- PAUSE_EXPIRE (R357). -/
  | pauseExpire (m : Nat)
  /-- UNKNOWN_OPCODE (R323). -/
  | unknownOpcode (op : Byte) (p : Pkt)
  /-- TAP_RESET (R407). -/
  | tapReset
  /-- CAPTURE_IR (R410). -/
  | captureIr
  /-- EXTEST (R411). -/
  | extest
  /-- SAMPLE_PRELOAD (R409). -/
  | samplePreload
  /-- IDCODE (R414). -/
  | idcode
  /-- CLAMP (R411). -/
  | clamp
  /-- HIGHZ (R409). -/
  | highz
  /-- DBGACC (R412). -/
  | dbgacc
  /-- HEALTHRD (R415). -/
  | healthrd
  /-- BYPASS (R409). -/
  | bypass (code : Byte)
  /-- DBGACC_UPDATE (R414). -/
  | dbgaccUpdate (dr : BitVec 66)
  /-- HEALTHRD_CAPTURE (R415). -/
  | healthrdCapture
  /-- BOUNDARY_UPDATE (R409). -/
  | boundaryUpdate (cells : BitVec 742)
  /-- NOP (R272). -/
  | nop (e : Nat) (p : Pfx)
  /-- DUP (R272). -/
  | dup (e : Nat) (p : Pfx)
  /-- DROP (R272). -/
  | drop (e : Nat) (p : Pfx)
  /-- SWAP (R272). -/
  | swap (e : Nat) (p : Pfx)
  /-- OVER (R272). -/
  | over (e : Nat) (p : Pfx)
  /-- ROT (R272). -/
  | rot (e : Nat) (p : Pfx)
  /-- NIP (R272). -/
  | nip (e : Nat) (p : Pfx)
  /-- PICK (R272). -/
  | pick (e : Nat) (p : Pfx) (u : Byte)
  /-- LIT8 (R272). -/
  | lit8 (e : Nat) (p : Pfx) (v : Byte)
  /-- LIT16 (R272). -/
  | lit16 (e : Nat) (p : Pfx) (v : Half)
  /-- LIT32 (R272). -/
  | lit32 (e : Nat) (p : Pfx) (v : Word)
  /-- DEPTH (R272). -/
  | depth (e : Nat) (p : Pfx)
  /-- ADD (R272). -/
  | add (e : Nat) (p : Pfx)
  /-- SUB (R272). -/
  | sub (e : Nat) (p : Pfx)
  /-- ADC (R272). -/
  | adc (e : Nat) (p : Pfx)
  /-- SBC (R272). -/
  | sbc (e : Nat) (p : Pfx)
  /-- NEG (R272). -/
  | neg (e : Nat) (p : Pfx)
  /-- ADDS (R272). -/
  | adds (e : Nat) (p : Pfx)
  /-- SUBS (R272). -/
  | subs (e : Nat) (p : Pfx)
  /-- ABS (R272). -/
  | abs (e : Nat) (p : Pfx)
  /-- MIN (R272). -/
  | min (e : Nat) (p : Pfx)
  /-- MAX (R272). -/
  | max (e : Nat) (p : Pfx)
  /-- MINU (R272). -/
  | minu (e : Nat) (p : Pfx)
  /-- MAXU (R272). -/
  | maxu (e : Nat) (p : Pfx)
  /-- AND (R272). -/
  | and (e : Nat) (p : Pfx)
  /-- OR (R272). -/
  | or (e : Nat) (p : Pfx)
  /-- XOR (R272). -/
  | xor (e : Nat) (p : Pfx)
  /-- NOT (R272). -/
  | not (e : Nat) (p : Pfx)
  /-- SHL (R272). -/
  | shl (e : Nat) (p : Pfx)
  /-- SHR (R272). -/
  | shr (e : Nat) (p : Pfx)
  /-- SAR (R272). -/
  | sar (e : Nat) (p : Pfx)
  /-- SHLI (R272). -/
  | shli (e : Nat) (p : Pfx) (u : Byte)
  /-- SHRI (R272). -/
  | shri (e : Nat) (p : Pfx) (u : Byte)
  /-- SARI (R272). -/
  | sari (e : Nat) (p : Pfx) (u : Byte)
  /-- MUL (R272). -/
  | mul (e : Nat) (p : Pfx)
  /-- MULU (R272). -/
  | mulu (e : Nat) (p : Pfx)
  /-- DIV (R272). -/
  | div (e : Nat) (p : Pfx)
  /-- DIVU (R272). -/
  | divu (e : Nat) (p : Pfx)
  /-- DIVL (R272). -/
  | divl (e : Nat) (p : Pfx)
  /-- DIVLU (R272). -/
  | divlu (e : Nat) (p : Pfx)
  /-- ADDI (R272). -/
  | addi (e : Nat) (p : Pfx) (v : Byte)
  /-- SEXT (R272). -/
  | sext (e : Nat) (p : Pfx)
  /-- ZEXT (R272). -/
  | zext (e : Nat) (p : Pfx)
  /-- CMP (R270). -/
  | cmp (e : Nat) (p : Pfx) (c : CByte)
  /-- TST (R272). -/
  | tst (e : Nat) (p : Pfx) (d : BitVec 3)
  /-- PLOG (R272). -/
  | plog (e : Nat) (p : Pfx) (l : PLogic)
  /-- PSET (R272). -/
  | pset (e : Nat) (p : Pfx) (d : BitVec 3) (v : Bool)
  /-- PUSHP (R272). -/
  | pushp (e : Nat) (p : Pfx) (d : BitVec 3)
  /-- POPP (R272). -/
  | popp (e : Nat) (p : Pfx) (d : BitVec 3)
  /-- PFLAG (R270). -/
  | pflag (e : Nat) (p : Pfx) (c : CByte)
  /-- LD (R272). -/
  | ld (e : Nat) (p : Pfx) (m : MByte) (d : Disp)
  /-- ST (R241). -/
  | st (e : Nat) (p : Pfx) (m : MByte) (d : Disp)
  /-- LEA (R272). -/
  | lea (e : Nat) (p : Pfx) (m : MByte) (d : Byte)
  /-- ADDB (R272). -/
  | addb (e : Nat) (p : Pfx) (b : BitVec 3) (v : Byte)
  /-- MFR (R271). -/
  | mfr (e : Nat) (p : Pfx) (r : Byte)
  /-- MTR (R271). -/
  | mtr (e : Nat) (p : Pfx) (r : Byte)
  /-- BR (R272). -/
  | br (e : Nat) (p : Pfx) (rel : Disp)
  /-- BRL (R272). -/
  | brl (e : Nat) (p : Pfx) (rel : Half)
  /-- BRA (R272). -/
  | bra (e : Nat) (p : Pfx) (target : BitVec 24)
  /-- BRLA (R272). -/
  | brla (e : Nat) (p : Pfx) (target : BitVec 24)
  /-- BRI (R272). -/
  | bri (e : Nat) (p : Pfx)
  /-- RET (R272). -/
  | ret (e : Nat) (p : Pfx)
  /-- LOOP (R272). -/
  | loop (e : Nat) (p : Pfx) (rel : Byte)
  /-- RETI (R250). -/
  | reti (e : Nat) (p : Pfx)
  /-- TDONE (R256). -/
  | tdone (e : Nat) (p : Pfx) (u : Byte)
  /-- TRAP (R272). -/
  | trap (e : Nat) (p : Pfx) (u : Byte)
  /-- BRK (R249). -/
  | brk (e : Nat) (p : Pfx)
  /-- POST (R245). -/
  | post (e : Nat) (p : Pfx) (w : BitVec 2) (m : MByte) (d : Byte)
  /-- FETCH (R245). -/
  | fetch (e : Nat) (p : Pfx) (w : BitVec 2) (m : MByte) (d : Byte)
  /-- LDR (R247). -/
  | ldr (e : Nat) (p : Pfx) (w : BitVec 2) (m : MByte) (d : Byte)
  /-- STC (R247). -/
  | stc (e : Nat) (p : Pfx) (w : BitVec 2) (m : MByte) (d : Byte) (pd : BitVec 3)
  /-- COLLECT (R246). -/
  | collect (e : Nat) (p : Pfx) (w : BitVec 2) (pd : BitVec 3)
  /-- CPYF (R277). -/
  | cpyf (e : Nat) (p : Pfx) (w : BitVec 2)
  /-- MOVS (R275). -/
  | movs (e : Nat) (p : Pfx)
  /-- FILLS (R275). -/
  | fills (e : Nat) (p : Pfx)
  /-- CMPS (R275). -/
  | cmps (e : Nat) (p : Pfx) (pd : BitVec 3)
  /-- CODEWR (R242). -/
  | codewr (e : Nat) (p : Pfx)
  /-- FLUSHI (R242). -/
  | flushi (e : Nat) (p : Pfx)
  /-- DMAC (R274). -/
  | dmac (e : Nat) (p : Pfx) (a b : BitVec 3)
  /-- CLRACC (R274). -/
  | clracc (e : Nat) (p : Pfx)
  /-- RDACC (R274). -/
  | rdacc (e : Nat) (p : Pfx)
  /-- RDACCS (R274). -/
  | rdaccs (e : Nat) (p : Pfx)
  /-- UNDEFINED_OPCODE (R273). -/
  | undefinedOpcode (e : Nat) (info : Nat)
deriving DecidableEq, Repr

end Sys2Proof
end

