-- ==== Sys2Proof/Config.lean ====
section
/-! DEFINITION. What one part fixes and the spec leaves open: constants with no body, so that nothing can be proved of their
values. Each is named in the assumption log. -/

namespace Sys2Proof

/-- Word k of the coefficient window that R439 leaves to the file HD2550_A1_rom.csv. (log 3: DESIGN CHOICE) -/
opaque Config.romWord : Nat → BitVec 32

/-- Departure of the CIC gain constant from 1, in 2^-40, for order N and ratio R (R113 bounds it by 2^-30). (log 4: DESIGN CHOICE) -/
opaque Config.cicTrim : Nat → Nat → BitVec 10

/-- Input delay t_in of a pin in 1/256 ns, corrected for temperature by the latest readings of the thermal sensors: TRG0 to TRG7 are 0 to 7,
ANG_IN0 to ANG_IN7 are 8 to 15 (R83). (log 5: DESIGN CHOICE) -/
opaque Config.pinDelay : Nat → List (Nat × BitVec 12) → BitVec 16

/-- Output delay t_out of a serial port's ball (0 to 15) or of a two-wire SDA driver (16 to 23) in 1/256 ns, corrected for temperature in the
same way (R84, R85). (log 5: DESIGN CHOICE) -/
opaque Config.outDelay : Nat → List (Nat × BitVec 12) → BitVec 16

/-- DSCRg receiver delay in 1/256 ns at the n-th measurement (R82). (log 5: DESIGN CHOICE) -/
opaque Config.receiverDelay : Nat → Nat → BitVec 12

/-- Typical DELAY(g) held in OTP in 1/256 ns (R82). (log 5: DESIGN CHOICE) -/
opaque Config.typicalDelay : Nat → BitVec 12

/-- Averaged round trip of group g over the n-th epoch in 1/256 ns, or none when the return pin shows no edges (R82). (log 5: DESIGN CHOICE) -/
opaque Config.roundTrip : Nat → Nat → Option Nat

/-- Spare rows a batch SRAM bank ships with, less 28, from 0 to 4 (R45). (log 6: DESIGN CHOICE) -/
opaque Config.factoryRows : Nat → Fin 5

/-- The 128-bit unique ID (R394). (log 7: DESIGN CHOICE) -/
opaque Config.uniqueId : BitVec 128

/-- The n-th debug nonce the hub draws (R353). (log 8: DESIGN CHOICE) -/
opaque Config.nonce : Nat → BitVec 128

/-- SHA-256 (FIPS 180-4), which the spec names and does not restate. (log 9: PRESUMED) -/
opaque Config.sha256 : List (BitVec 8) → BitVec 256

/-- ECDSA P-256 verification of a message digest and a signature under the public key whose SHA-256 is given. (log 9: PRESUMED) -/
opaque Config.ecdsaVerify : BitVec 256 → BitVec 256 → BitVec 512 → Bool

/-- AES-GCM decryption of an image in flash, header first, under a key succeeds (R382). (log 9: PRESUMED) -/
opaque Config.gcmOk : BitVec 256 → List (BitVec 8) → Bool

/-- Measured reading a block holds where no command carries it, by what is read and the count of readings. (log 11: DESIGN CHOICE) -/
opaque Config.reading : Nat → Nat → BitVec 32

/-- Whether the boundary cells of IRQ_N hold it low, whose places among the 742 the spec leaves to the BSDL file (R416, R417). (log 141: DESIGN CHOICE) -/
opaque Config.irqCell : BitVec 742 → Bool

/-- The free value: what the spec leaves open, at the n-th use. (log 12: DESIGN CHOICE) -/
opaque Config.freeValue : Nat → BitVec 64

end Sys2Proof
end

