-- ==== Sys2Proof/Machine/State.lean ====
section
/-! DEFINITION. The state of the hub: plain data, every register, table, queue, counter, mode and pin the spec gives it, and the
queue of waiting commands; with the outcomes a step may stop with, and the state after reset. -/

namespace Sys2Proof.Machine

/-- The reasons a command stops the hub with a fault. R14 states an outcome for everything, so no command raises one. -/
inductive Fault where
deriving DecidableEq, Repr

/-- The reasons a command is refused. -/
inductive Refusal where
  /-- Raised by the dispatch of a command the model gives no meaning; safe, since nothing follows from a stop. -/
  | notModelled (mnemonic : String)
deriving DecidableEq, Repr

/-- A sparse table: pairs of an index and a value in strictly rising index order. An index it does not list has the value the
table's reader names. -/
abbrev Tab (α : Type) := List (Nat × α)

/-! ### Time base (R70 to R78, R82) -/

/-- A stretch of TIME ticks at one TINC: when it began, the TIME value there and the TINC (R84). -/
structure TimeLine where
  at_ : Nat
  acc : BitVec 64
  inc : BitVec 64
deriving DecidableEq, Repr

/-- The time base at 0x0002_0000 apart from its registers. -/
structure TimeBase where
  /-- accumulator: TS in the upper word, fraction in the lower (R70) -/
  acc : BitVec 64
  /-- wraps and half-wraps of TS since reset (R62, R74) -/
  wraps : BitVec 40
  halfwraps : BitVec 40
  epochS : BitVec 48
  epochNs : BitVec 30
  epochValid : Bool
  armed : Bool
  setDone : Bool
  lock : Bool
  holdover : Bool
  /-- the accumulator counts AON crystal cycles in BASIN (R316) -/
  onCrystal : Bool
  /-- TB_STATUS.PENDING: an accepted COMMIT waits for its tick (R72) -/
  commitPend : Bool
  /-- an accepted REPAIR waits for its tick (R77) -/
  repairPend : Bool
  /-- an accepted TS_SET waits for its tick (R73) -/
  setPend : Option Word
  calFail : BitVec 4
  calDone : BitVec 4
  /-- DELAY(g) in 1/256 ns (R82) -/
  delay : Tab (BitVec 12)
  /-- the BOARD value DELAY(g) counts (R82) -/
  board : Tab (BitVec 12)
  /-- measurements made, which numbers the readings of R82 -/
  measures : Nat
  /-- time since the last schedule epoch began, in 1/64 ns of REFCLK time (R183) -/
  epochPhase : Nat
  /-- schedule epochs begun since the first lock (R183) -/
  epochs : Nat
  /-- a wrap, half-wrap or epoch of the last tick whose command is not yet carried out -/
  wrapDue : Bool
  halfDue : Bool
  epochDue : Bool
  /-- TS passed zero since the last valid EPOCH: wraps since then (R315) -/
  staleWraps : Nat
  /-- Mbonik has a HALFWRAP to serve under R78 -/
  rearmDue : Bool
  /-- ticks since the present beat began: five TIME ticks span eight PORT cycles (R84) -/
  beat : Nat
  /-- TIME values of the ticks back to the first beat a port still needs, newest stretch first (R84) -/
  lines : List TimeLine
deriving DecidableEq, Repr

/-! ### Streams and records (R50 to R69) -/

/-- CTX_STATUS.STATE (R64). -/
inductive StreamState where
  | idle
  | armed
  | running
  | waiting
  | draining
  | fault
deriving DecidableEq, Repr

/-- One filled slot of an open record (R56, R57). -/
structure Slot where
  bits   : BitVec 64
  sat    : Bool
  status : Half
deriving DecidableEq, Repr

/-- A stream context apart from its registers (R64 to R69). -/
structure Stream where
  state   : StreamState
  cause   : BitVec 4
  pending : Bool
  records : BitVec 48
  /-- the open record: its filled slots, instant, exact period, lattice position and kind (R58, R59, R142) -/
  slots   : List Slot
  t0      : Instant
  per     : Option Nat
  pos     : Option Half
  pass    : Bool
  /-- spacing of the grid of the open record, and the USER_LAT its first point was evaluated with (R58, R139) -/
  grid    : Nat
  lat     : Option Word
  /-- samples handed over before a boundary and not yet taken, after the last of which the open record closes (R59) -/
  closing : Nat
  /-- the next record carries GAP (R55) -/
  gap     : Bool
  /-- no record formed since START (R55) -/
  fresh   : Bool
  /-- active edges since START (R65) -/
  edges   : BitVec 24
  /-- causes of WAITING that hold: detached, holdover, switched off (R66) -/
  detach  : Bool
  clock   : Bool
  power   : Bool
  /-- home engine (R254), if one has been assigned, and the engine of its last run since START (R255) -/
  home    : Option Nat
  lastEng : Option Nat
deriving DecidableEq, Repr

/-- A context of which nothing has been asked. -/
def Stream.init : Stream :=
  { state := .idle, cause := 0, pending := false, records := 0, slots := [], t0 := 0, per := none, pos := none, pass := false,
    grid := 0, lat := none, closing := 0, gap := false, fresh := true, edges := 0, detach := false, clock := false, power := false, home := none, lastEng := none }

/-- Where a formed record stands between the stamp unit and its ring. -/
inductive Stage where
  /-- stage 6 has still to hand it to an engine, as a first run or as a re-run (R18, R255) -/
  | toTask (rerun : Bool)
  /-- an engine's queue or an engine holds it -/
  | inTask
  /-- it, or its task's result, waits for stage 7 behind an earlier record of its stream (R18) -/
  | result
  /-- it has passed stage 7, to the recognisers that tap its stream, and waits for stage 8 -/
  | ready
  /-- its task handed on no record (R256) -/
  | none
  /-- the result of a task run that a hold of the engine shadow keeps, with TDONE's operand (R285) -/
  | held (u : Nat)
deriving DecidableEq, Repr

/-- A formed record between the stamp unit and its ring (stages 5 to 8 of R16), in order of acquisition within its stream
(R18); seq is CTX_RECORDS at its formation (R255). -/
structure Flight where
  sid   : Nat
  seq   : BitVec 48
  rcd   : Record
  stage : Stage
  /-- instant of slot 0 before rounding, the exact output period where R87 states one, and the grid spacing of a grid record
  (0: none), from which the instants and positions of the later slots follow (R58, R201) -/
  t0    : Instant
  per   : Option Nat
  grid  : Nat
  /-- CTX_DEST and the recognisers that tap the stream, as in force when it was formed (R64) -/
  dest  : Word
  taps  : List Nat
deriving DecidableEq, Repr

/-! ### Angle unit (R89 to R111, R440) -/

/-- A decoded edge: its instant, its position in 2^-16 of the domain's unit, and how many edges of the domain were decoded before it (R97). -/
structure Mark where
  t : Instant
  p : Nat
  n : Nat := 0
deriving DecidableEq, Repr

/-- One run of a domain: its newest edges (newest first, at most 8192), where it became synchronised, where it ended, the
predicted span after the newest edge in 2^-40 ns and its angle, and the zeroings of a DIST domain (R97, R101). -/
structure Course where
  marks : List Mark
  start : Option Instant
  stop  : Option Instant
  span  : Option Nat
  dth   : Nat
  zeros : List (Instant × Nat)
deriving DecidableEq, Repr

/-- A run of which nothing is decoded. -/
def Course.init : Course :=
  { marks := [], start := none, stop := none, span := none, dth := 0, zeros := [] }

/-- CRK_STATUS.STATE (R91). -/
inductive CrankState where
  | search
  | gapFound
  | sync360
  | sync720
  | lost
deriving DecidableEq, Repr

/-- The crank decoder apart from its registers (R91 to R96). -/
structure Crank where
  state   : CrankState
  prev    : CrankState
  loss    : BitVec 4
  reverse : Bool
  /-- last edge, last two periods per tooth and the prediction, in 2^-40 ns -/
  last    : Option Instant
  per     : Option Nat
  perPrev : Option Nat
  pred    : Option Nat
  period  : Word
  /-- regular periods since entry to SEARCH, edges since the last reference mark, an extra edge awaits its span -/
  regular : Nat
  count   : Nat
  extra   : Bool
  /-- half of the cycle the next mark takes after a cam edge in SYNC360, and the half the cam edge was read in (R93) -/
  camHalf : Option Nat
  camRead : Nat
  /-- revolution angle of that cam edge (R94) -/
  camAt   : Nat
  /-- cam edge seen in the window of each half, and violations in a row (R94) -/
  seen0   : Bool
  seen1   : Bool
  bad     : Nat
  /-- rise of the tooth pulse under way, and a forward edge held until its width is known (R94, R95) -/
  rise    : Option Instant
  held    : Option Instant
  /-- when the last tooth edge was decoded -/
  lastAt  : Nat
  /-- edges decoded, the synchronised run under way and those before it, newest first (R97) -/
  edges   : Nat
  run     : Course
  olds    : List Course
deriving DecidableEq, Repr

/-- A DIST domain apart from its registers (R99 to R101). -/
structure Dist where
  track   : Bool
  /-- distance counted modulo 65 535 x 2^16 -/
  ctr     : Nat
  last    : Option Instant
  per     : Option Nat
  perPrev : Option Nat
  pred    : Option Nat
  laps    : BitVec 40
  /-- the count has passed its modulus since the last zero -/
  wrapped : Bool
  /-- when the last pulse was counted -/
  lastAt  : Nat
  zeroDue : Bool
  /-- pulses counted, the run under way and those before it, newest first (R97) -/
  edges   : Nat
  run     : Course
  olds    : List Course
deriving DecidableEq, Repr

/-- A DIST domain after reset. -/
def Dist.init : Dist :=
  { track := false, ctr := 0, last := none, per := none, perPrev := none, pred := none, laps := 0, wrapped := false, lastAt := 0,
    zeroDue := false, edges := 0, run := Course.init, olds := [] }

/-- A schedule entry apart from its words (R102 to R104). -/
structure Ase where
  armed : Bool
  susp  : Bool
  defer : Bool
  /-- an ASE_ACTION write waits for its tick -/
  arming : Bool
  /-- fired in the cycle under way -/
  fired : Bool
  fires : Half
deriving DecidableEq, Repr

/-- A schedule entry after reset. -/
def Ase.init : Ase := { armed := false, susp := false, defer := false, arming := false, fired := false, fires := 0 }

/-- The action of a fired entry that waits to pass to its target: the entry, its ASE_ACTION and ASE_PARAM, and its ASE_POS, TIME value and
domain position at the firing tick (R105). -/
structure AseAct where
  entry  : Nat
  action : Word
  param  : Word
  target : Nat
  tick   : BitVec 64
  pos    : Half
deriving DecidableEq, Repr

/-- The angle unit apart from its registers. -/
structure Angle where
  crank : Crank
  dist  : Tab Dist
  ase   : Tab Ase
  /-- exact position of each domain at the last tick: 0 TIME, 1 CRANK, 2 to 5 DIST -/
  lastPos : Tab Nat
  /-- entries that reached their position in the last tick, ascending (R105) -/
  firing : List Nat
  /-- actions passed to their targets in this tick, and those that wait for the next, oldest first (R105) -/
  passed : Nat
  acts   : List AseAct
  disarmAll : Bool
  /-- filtered pin levels (R89, R187) -/
  angLevel : BitVec 8
  trgLevel : BitVec 8
  /-- pulses that have fired and not started: pin, width in ticks, when they start (R105) -/
  pulses : List (Nat × Nat × Nat)
  /-- TOUT pins driven active, and until when (R109) -/
  tout : Tab Nat
  /-- when the edges the wake counter holds fell, newest first (R110) -/
  wakeEdges : List Nat
deriving DecidableEq, Repr

/-! ### Decimation banks and resamplers (R112 to R148) -/

/-- A stretch of modulator edges at even spacing: first edge index, its TIME value, the spacing, DELAY in force (R81). -/
structure EdgeRun where
  k     : Nat
  acc   : BitVec 64
  step  : BitVec 64
  delay : BitVec 12
deriving DecidableEq, Repr

/-- A modulator clock group (R114, R115). -/
structure Group where
  /-- launching edges -/
  on      : Bool
  /-- ticks until the next edge -/
  wait    : Nat
  /-- edges launched since its start -/
  edges   : Nat
  /-- runs of edges, newest first -/
  runs    : List EdgeRun
  /-- told to stop at the end of its clock period -/
  ending  : Bool
  /-- it ran through the whole of the epoch under way (R82) -/
  whole   : Bool
deriving DecidableEq, Repr

/-- A group that has never run. -/
def Group.init : Group := { on := false, wait := 0, edges := 0, runs := [], ending := false, whole := false }

/-- A value inside a filter chain with its SAT mark (R113). -/
structure Val where
  v   : Int
  sat : Bool
deriving DecidableEq, Repr

/-- A logical Bank H slice apart from its registers (R112 to R128). -/
structure HSlice where
  /-- delay line, newest first, at most 1024 bits (R114), and how many were recorded since the group started -/
  line    : List Bool
  lineN   : Nat
  /-- histories of the stages, newest first (R112) -/
  cic     : List Bool
  hb1     : List Val
  hb2     : List Val
  fir     : List Val
  farrow  : List Val
  /-- edge index of the next bit, and inputs since priming began (R127) -/
  edge    : Nat
  count   : Nat
  /-- claimed and before its first output (R127) -/
  priming : Bool
  pending : Bool
  settle  : Nat
  /-- the next output starts a new record (R59) -/
  cut     : Bool
deriving DecidableEq, Repr

/-- A slice after reset. -/
def HSlice.init : HSlice :=
  { line := [], lineN := 0, cic := [], hb1 := [], hb2 := [], fir := [], farrow := [], edge := 0, count := 0, priming := false,
    pending := false, settle := 0, cut := false }

/-- An input of a Bank M slice: instant and value (R120, R191). -/
structure MIn where
  t : Instant
  v : Val
deriving DecidableEq, Repr

/-- A logical Bank M slice apart from its registers (R120 to R128). -/
structure MSlice where
  /-- inputs, newest first -/
  ins     : List MIn
  st1     : List Val
  st2     : List Val
  /-- inputs since priming began, and inputs delivered in all -/
  count   : Nat
  total   : Nat
  /-- places among the inputs before which a word is missing, with whether that sets GAP (R121) -/
  holes   : List (Nat × Bool)
  priming : Bool
  syncWait : Bool
  /-- inputs at or before this instant are discarded (R124) -/
  after   : Option Instant
  pending : Bool
  settle  : Nat
  cut     : Bool
  /-- exact period of the transaction entry at the last input (R87) -/
  per     : Option Nat
  /-- words the port has delivered and the slice has not taken: instant, value, period -/
  fifo    : List (Instant × Val × Option Nat)
deriving DecidableEq, Repr

/-- A slice after reset. -/
def MSlice.init : MSlice :=
  { ins := [], st1 := [], st2 := [], count := 0, total := 0, holes := [], priming := false, syncWait := false, after := none,
    pending := false, settle := 0, cut := false, per := none, fifo := [] }

/-- An output held in a resampler's history, and whether an output is absent before it (R136, R141). -/
structure RsIn where
  t    : Instant
  v    : Val
  hole : Bool
deriving DecidableEq, Repr

/-- A logical resampler context apart from its registers (R136 to R148). -/
structure Rsmp where
  /-- newest first, at most 8192 -/
  hist    : List RsIn
  /-- an output of the source is absent before the next one -/
  hole    : Bool
  /-- next lattice point in domain units, and the grid instant of the last one (R140) -/
  next    : Option Nat
  lastT   : Option Instant
  /-- the domain has lost synchronisation since START, and has not regained it (R142) -/
  lost    : Bool
  /-- source outputs counted for LOSS_DIV (R142) -/
  loss    : Nat
  pending : Bool
  last    : Half
  /-- the next record starts afresh (R59), and a source output is missing before the next pass record (R142) -/
  cut     : Bool
  gap     : Bool
  /-- where the domain stood, in 2^-16 of its unit, at each zero whose ending lap still has lattice points to form, oldest first (R137) -/
  laps    : List Nat
deriving DecidableEq, Repr

/-- A context after reset. -/
def Rsmp.init : Rsmp :=
  { hist := [], hole := false, next := none, lastT := none, lost := false, loss := 0, pending := false, last := 0xFFFF, cut := false,
    gap := false, laps := [] }

/-! ### Recognisers (R200 to R218) -/

/-- A window of a recogniser (R205 to R209). -/
structure Window where
  open_   : WinEdge
  close   : Option WinEdge
  /-- when its close tick was (R206) -/
  closedAt : Nat
  /-- largest value with its instant, position, SID and flags -/
  peak    : Option (Int × BitVec 36 × Half × Byte × BitVec 4)
  samples : Nat
  gap     : Bool
deriving DecidableEq, Repr

/-- A recogniser apart from its registers (R200 to R218). -/
structure Recog where
  out     : Bool
  pending : Bool
  opened  : Option Window
  settling : Option Window
  /-- SLOPE history and COUNT hits since EN or GAP, newest first (R203) -/
  past    : List Int
  hits    : List Bool
  last    : Word
  /-- last rise of OUT since EN, and when it came (R210) -/
  rise    : Option (BitVec 36)
  roseAt  : Nat
  /-- event held in HOLLOW, with its queue (R215) -/
  held    : Option (Nat × Record)
  /-- samples were dropped in HOLLOW: the next evaluated is treated as after a GAP (R215) -/
  dropped : Bool
  /-- inputs true at the last evaluation of a COMBINE (R210) -/
  truth   : BitVec 4
deriving DecidableEq, Repr

/-- A recogniser after reset. -/
def Recog.init : Recog :=
  { out := false, pending := false, opened := none, settling := none, past := [], hits := [], last := 0, rise := none, roseAt := 0,
    held := none, dropped := false, truth := 0 }

/-- A trigger whose actions have still to be carried out: recogniser, slot, event record, and the action and capture settings in force when it came
(R211, R213, R218). -/
structure Fired where
  r    : Nat
  slot : Nat
  e    : Record
  act  : Word
  cap  : Word
  pre  : Word
  post : Word
deriving DecidableEq, Repr

/-! ### Queues and rings (R219 to R236) -/

/-- An item of an event queue: the record, when it was inserted, whether it is eligible (R220), and whether the byte parity of its stage will fail when
a pop reads it (R223). -/
structure EqItem where
  rcd  : Record
  at_  : Nat
  ripe : Bool
  bad  : Bool := false
deriving DecidableEq, Repr

/-- An event queue apart from its registers: items in arrival order, and the value the last pop returned (R222). -/
structure EventQueue where
  items : List EqItem
  last  : Option Record
deriving DecidableEq, Repr

/-- An empty queue. -/
def EventQueue.init : EventQueue := { items := [], last := none }

/-- A ring apart from its registers (R228 to R233). -/
structure Ring where
  /-- RUN is 1, CAPTURE 2, FROZEN 3, OFF 0 -/
  state : BitVec 2
  wr    : Word
  rd    : Word
  /-- records written since it was enabled, without wrap (R233) -/
  count : Nat
  capStart : Word
  capEnd   : Word
  /-- write index, PRE and POST of the capture under way, with records written at its trigger -/
  trig  : Word
  trigN : Nat
  pre   : Nat
  post  : Nat
  /-- the newest records, as many as the ring holds, with when each was written, oldest first (R231, R371) -/
  dates : List (Word × Nat)
deriving DecidableEq, Repr

/-- A ring after reset. -/
def Ring.init : Ring :=
  { state := 0, wr := 0, rd := 0, count := 0, capStart := 0, capEnd := 0, trig := 0, trigN := 0, pre := 0, post := 0, dates := [] }

/-! ### Scheduler and probes (R181 to R199) -/

/-- What asked for a transaction: a transaction entry, a probe, or Mbonik's flash frames (R184). -/
inductive TxnSrc where
  | entry (i : Nat)
  | probe (j : Nat)
  | flash
deriving DecidableEq, Repr

/-- A transaction with the fields of its entry in force when its trigger fell due (R183). -/
structure Txn where
  src   : TxnSrc
  cls   : Nat
  /-- order in which the triggers fell due, and when this one did (R189) -/
  seq   : Nat
  at_   : Nat := 0
  fmt   : Nat
  sel   : Nat
  addr  : Nat
  ref   : Nat
  ofs   : Nat
  width : Nat
  unsig : Bool
  le    : Bool
  per   : Option Nat
deriving DecidableEq, Repr

/-- The queue of a port and the transaction it runs (R184, R189). -/
structure PortQueue where
  waiting : List Txn
  active  : Option Txn
deriving DecidableEq, Repr

/-- An idle port. -/
def PortQueue.init : PortQueue := { waiting := [], active := none }

/-- A transaction entry apart from its words (R181 to R192). -/
structure TxEntry where
  /-- a transaction in flight: queued, or active on its port -/
  queued : Bool
  active : Bool
  /-- a trigger is held (R184), with the transaction it will make -/
  held   : Option Txn
  /-- it is held by the Bank M spacing alone (R192) -/
  spaced : Bool
  last   : BitVec 4
  /-- next due instant in ns of TS (R185) -/
  due    : Option Word
  /-- when the previous transaction started (R192) -/
  started : Option Nat
deriving DecidableEq, Repr

/-- An entry after reset. -/
def TxEntry.init : TxEntry :=
  { queued := false, active := false, held := none, spaced := false, last := 0, due := none, started := none }

/-- PR_STATUS.STATE (R195). -/
inductive ProbeState where
  | off
  | unknown
  | present
  | absent
deriving DecidableEq, Repr

/-- A probe entry apart from its registers (R195 to R198). -/
structure Probe where
  state  : ProbeState
  misses : Nat
  /-- schedule epochs since EN or the last period -/
  epochs : Nat
  /-- its frame is queued or running, waits for a place, or has ended with a code and the identity read (R196) -/
  queued : Bool
  waiting : Bool
  result : Option (Nat × Word)
  /-- active edges, or Announce messages, in the period (R196) -/
  seen   : Nat
  gm     : Word
deriving DecidableEq, Repr

/-- A probe after reset. -/
def Probe.init : Probe :=
  { state := .off, misses := 0, epochs := 0, queued := false, waiting := false, result := none, seen := 0, gm := 0 }

/-! ### Power (R306 to R317) -/

/-- The governor apart from its registers. States are numbered as in R306. -/
structure Power where
  state    : Nat
  target   : Nat
  block    : BitVec 3
  entering : Bool
  /-- since when the target has been deeper than the state (R307) -/
  since    : Option Nat
  /-- holds in force: ceiling and when they end (R311) -/
  holds    : List (Nat × Nat)
  /-- HEALTH events held in HOLLOW and BASIN, oldest first (R313) -/
  health   : List Record
  /-- samples the recognisers evaluated in the epoch under way (R215) -/
  samples  : Nat
  /-- streams with the cycles spent in their tasks in each of the last 10 epochs, newest first (R308) -/
  loads    : List (List (Nat × Nat))
  /-- VID codes dropped for HOLLOW or BASIN (R312) -/
  dropped  : Nat
  /-- WRAPS at entry to HOLLOW or BASIN (R107) -/
  wraps0   : BitVec 40
  /-- when the entry under way began (R176) -/
  enterAt  : Nat
deriving DecidableEq, Repr
/-! ### Serial and two-wire ports (R149 to R180) -/

/-- What a port does with its active transaction: nothing, a frame, a wait before the next attempt, or it has ended with a completion
code (R157, R158, R165, R166). -/
inductive PortPhase where
  | idle
  | frame
  | wait
  | done (code : Nat)
deriving DecidableEq, Repr

/-- Levels a serial port gives its pins in a tick, which reach the balls while no boundary instruction holds them (R149 to R153, R413): SEN_N, SEL[2:0], SCLK, SDO, the lanes the hub drives from DQ0 upward, the others
being released, and whether it drives DQS low or releases it; and the bits per lane of DATA it has sampled in the frame. -/
structure SpPins where
  senN   : Bool
  sel    : Nat
  sclk   : Bool
  sdo    : Bool
  dq     : List Bool
  dqsLow : Bool
  taken  : Nat
deriving DecidableEq, Repr

/-- A serial port apart from its registers (R150 to R161). -/
structure SerialPort where
  phase  : PortPhase
  /-- TIME value of the first tick of the beat in which the port took its transaction, and when that tick was (R84) -/
  base   : BitVec 64
  at_    : Nat
  /-- PORT cycle, from that tick, in which SEN_N falls for the frame under way, or for the next attempt -/
  sen    : Nat
  /-- when SEN_N last rose -/
  rise   : Nat
  /-- code for SEL[2:0], format and attempts minus 1 of the current or last transaction, idle level of SCLK (R150, R153, R154) -/
  sel    : Nat
  fmt    : Nat
  tries  : Nat
  sclk   : Bool
  /-- when the code and the idle level change, and what they are until then (R150, R153) -/
  change : Nat
  selOld : Nat
  clkOld : Bool
  /-- until when SCLK stays away from its idle level after a cut (R158) -/
  back   : Nat
  pending : Bool
  /-- FMT_A to FMT_ADDR and the OUT buffer as at the first attempt (R151, R156) -/
  words  : List Word
  out    : List Word
  /-- incoming words and the status field of the frame that completed (R157) -/
  data   : List Word
  status : Half
  pins   : SpPins
deriving DecidableEq, Repr

/-- A serial port after reset. -/
def SerialPort.init : SerialPort :=
  { phase := .idle, base := 0, at_ := 0, sen := 0, rise := 0, sel := 0, fmt := 0, tries := 0, sclk := false, change := 0, selOld := 0,
    clkOld := false, back := 0, pending := false, words := [], out := [], data := [], status := 0,
    pins := { senN := true, sel := 0, sclk := false, sdo := false, dq := [], dqsLow := false, taken := 0 } }

/-- A frame addressed to the hub's target logic: the address, whether it uses PEC, and the command code (R172, R173). -/
structure TargetFrame where
  addr : BitVec 7
  pec  : Bool
  code : Option Byte
  /-- the address with R has followed the code -/
  rd   : Bool
  /-- the address the code came with, and the record EQ_PEEK returns, taken when the code was acknowledged (R227) -/
  first : BitVec 7
  item : BitVec 128
deriving DecidableEq, Repr

/-- A two-wire port apart from its registers (R162 to R180). -/
structure TwoWirePort where
  phase  : PortPhase
  /-- as for a serial port -/
  base   : BitVec 64
  at_    : Nat
  fmt    : Nat
  tries  : Nat
  pending : Bool
  /-- TWF_A to TWF_STAT as at the first attempt (R166) -/
  words  : List Word
  /-- NACKed, arbitration-lost and not-ready attempts, and the code of the last attempt (R166) -/
  nacks  : Nat
  arbs   : Nat
  waits  : Nat
  last   : Nat
  /-- PORT cycles of the START and of the read's START of the attempt that completed, its read bytes and status byte -/
  start  : Nat
  rstart : Nat
  data   : List Byte
  status : Half
  /-- the bus is busy (R169); when it becomes or became free; and what the next attempt waits for beyond that -/
  busy   : Bool
  freeAt : Nat
  hold   : Nat
  /-- STUCK state (R171) -/
  stuck  : Bool
  tgt    : Option TargetFrame
  /-- bytes the target logic sends in the last read served, PEC byte included; beyond them it sends 0xFF (R173) -/
  sent   : List Byte
deriving DecidableEq, Repr

/-- A two-wire port after reset. -/
def TwoWirePort.init : TwoWirePort :=
  { phase := .idle, base := 0, at_ := 0, fmt := 0, tries := 0, pending := false, words := [], nacks := 0, arbs := 0, waits := 0, last := 0,
    start := 0, rstart := 0, data := [], status := 0, busy := false, freeAt := 0, hold := 0, stuck := false, tgt := none, sent := [] }

/-! ### Engines (R237 to R261) -/

/-- ENG_STATUS.STATE (R258). -/
inductive EngState where
  | reset
  | idle
  | task
  | handler
  | halted
  | debug
  | retired
deriving DecidableEq, Repr

/-- A window slot (R245, R246): the address and the words asked for, the data once the fabric has served the read, and whether it has arrived, well or
as all-zero data under R30. -/
structure WinSlot where
  addr    : Nat
  count   : Nat
  data    : Option (List Half)
  arrived : Bool
  bad     : Bool
deriving DecidableEq, Repr

/-- A request in an outbound queue (R244, R245): a write of words, those a mask leaves out being none, or a read into a window slot. -/
inductive EngReq where
  | write (addr : Nat) (words : List (Option Half))
  | read (w addr count : Nat)
deriving DecidableEq, Repr

/-- A dispatch entry: the record by its stream and SEQ, and whether it is a re-run (R254, R255). -/
structure DispatchEntry where
  sid   : Nat
  seq   : BitVec 48
  rerun : Bool
  /-- the run is the third opinion of a vote: it hands on nothing, and its writes are captured (R286) -/
  third : Bool := false
deriving DecidableEq, Repr

/-- A task run in progress: its entry, cycles used of its budget, and the budget in cycles, 0 for none (R256). -/
structure TaskRun where
  entry  : DispatchEntry
  used   : Nat
  budget : Nat
deriving DecidableEq, Repr

/-- An engine apart from its RAMs and its control registers (R237). Number 72 is the Col pair. -/
structure Engine where
  st    : EngState
  /-- the state HALT = 0 returns to (R259) -/
  back  : EngState
  pc    : BitVec 18
  /-- operand stack, top first -/
  stack : List Half
  pred  : Byte
  /-- B0 to B7, ML0 to ML7 and the bit-reverse flags -/
  b     : Tab Half
  ml    : Tab Half
  brf   : Byte
  lr    : BitVec 18
  rc    : Half
  sr    : Half
  epc   : BitVec 18
  esr   : Half
  win   : Tab Half
  acc   : BitVec 40
  /-- store buffer: word address and words, and code-write buffer, oldest first (R241, R242) -/
  sbuf  : Option (Nat × List Half)
  cbuf  : List (Nat × Byte)
  slots : Tab WinSlot
  /-- granule on which it holds a reservation (R247) -/
  res   : Option Nat
  queue : List DispatchEntry
  /-- runs that start before the queue's: those abandoned, re-run, and a third opinion's (R259, R286) -/
  again : List DispatchEntry := []
  run   : Option TaskRun
  cycles : BitVec 48
  cause : BitVec 4
  /-- task and stream of the current or last run -/
  task  : Byte
  sid   : Byte
  /-- cycles it had counted when the epoch under way began (R292) -/
  mark  : BitVec 48
  /-- addresses of its hardware breakpoints (R389) -/
  breaks : List (BitVec 18) := []
  /-- cycles its runs of each stream's task have used in the epoch under way (R308) -/
  work  : Tab Nat := []
deriving DecidableEq, Repr

/-- A Dale engine after reset. -/
def Engine.init : Engine :=
  { st := .reset, back := .idle, pc := 0, stack := [], pred := 1, b := [], ml := [], brf := 0, lr := 0, rc := 0, sr := 0, epc := 0,
    esr := 0, win := [], acc := 0, sbuf := none, cbuf := [], slots := [], res := none, queue := [], run := none, cycles := 0, cause := 0,
    task := 0, sid := 0, mark := 0 }

/-- The Col pair after reset: running, in SERVICE mode (R260, R261). -/
def Engine.colInit : Engine := { Engine.init with st := .idle, sr := 0x0400 }

/-! ### Self-repair (R278 to R297) -/

/-- An output of a slice held back by a hold (R285). -/
structure HeldOut where
  t   : Instant
  v   : Val
  per : Option Nat
  gap : Bool
  cut : Bool
deriving DecidableEq, Repr

/-- A word an engine writes: fabric byte address and value. -/
abbrev Written := Nat × Half

/-- What a comparator keeps of the work it compares (R285): of a slice the input bits, of a slice or context the input values, newest first; of an
engine the input record of the run, the log of its writes, oldest first, and whether it overflowed. -/
structure Witness where
  bits  : List Bool := []
  vals  : List Val := []
  input : Option Record := none
  log   : List Written := []
  full  : Bool := false
deriving DecidableEq, Repr

/-- The third opinion of an engine vote: the engine that runs it, its captured writes and whether they overflowed, and TDONE's operand and
the result record once it has ended (R286). -/
structure Third where
  eng    : Nat
  log    : List Written := []
  full   : Bool := false
  result : Option (Nat × Record) := none
deriving DecidableEq, Repr

/-- The shadow of one kind (R282 to R291): 0 Bank H, 1 Bank M, 2 resampler, 3 engine. -/
structure Shadow where
  live    : Option Nat
  spare   : Option Nat
  /-- 0 IDLE, 1 WARM, 2 COMPARE, 3 VOTE -/
  phase   : Nat
  elapsed : Nat
  /-- outputs or runs compared in the dwell, and outputs or points since it began to warm up -/
  compared : Nat
  warmed  : Nat
  /-- the units of the previous dwell -/
  prevLive  : Option Nat
  prevSpare : Option Nat
  /-- RP_CTRL.NEXT asks for the end of the dwell; an epoch has begun at which a dwell may start -/
  next    : Bool
  ask     : Bool
  /-- outputs held, oldest first (a grid point by its stream, none where it is missing), and when the hold began -/
  outs    : List HeldOut
  smps    : List (Nat × Option Sample)
  since   : Nat
  /-- the witness, which a mismatch freezes -/
  wit     : Witness := {}
  /-- of an engine pair that has started a run together, the live engine's cycle count then (R284) -/
  joined  : Option (BitVec 48) := none
  third   : Option Third := none
deriving DecidableEq, Repr

/-- No shadow. -/
def Shadow.init : Shadow :=
  { live := none, spare := none, phase := 0, elapsed := 0, compared := 0, warmed := 0, prevLive := none, prevSpare := none, next := false, ask := false,
    outs := [], smps := [], since := 0 }

/-- The self-repair unit apart from its registers. -/
structure Repair where
  shadows : Tab Shadow
  /-- the field-repair area as OTP holds it, entry 0 first (R280), and entries Mbonik has still to write (R281) -/
  otp     : List (BitVec 64)
  due     : List (BitVec 64)
  badChk  : Nat
  late    : Bool
  /-- retired engines that have passed their self-test and return at the next epoch (R291) -/
  returning : List Nat
  /-- streams whose home was retired in STEALING, to which the next epoch gives a new one (R295) -/
  homeless : List Nat := []
  /-- STEALING, the load of the last epoch, and epochs in a row above 90 % and at or below 75 % (R292) -/
  stealing : Bool
  load    : Nat
  high    : Nat
  low     : Nat
deriving DecidableEq, Repr


/-! ### Layout Table (R35 to R49) -/

/-- What the table says of the hub: unit states that are not as shipped, SRAM rows and columns repaired in the field, banks out of
service, the planned ENG step and whether engine scheduling is STEALING (R46). -/
structure LayoutFacts where
  units    : Tab (BitVec 2)
  rows     : List (Nat × Nat)
  cols     : List (Nat × Nat)
  out      : BitVec 16
  step     : Nat
  stealing : Bool
deriving DecidableEq, Repr

/-- The shipped contents (R44, R45). -/
def LayoutFacts.init : LayoutFacts := { units := [], rows := [], cols := [], out := 0, step := 0, stealing := false }

/-- The active copy: GENERATION (0 before it is built), CHANGE_TS and contents; whether anything has changed in the epoch under way; and
the contents the next swap publishes (R37, R47). -/
structure Layout where
  gen     : Word
  ts      : Word
  facts   : LayoutFacts
  changed : Bool
  next    : Option LayoutFacts
deriving DecidableEq, Repr

/-! ### Ageing (R298 to R305) -/

/-- A relaxable step in force: a voltage step or else a clock step, the VID then in force, M of the cycle that took it, and the margin it
gained. -/
structure PlanStep where
  volt   : Bool
  vid    : Nat
  before : Int
  gain   : Option Int
  /-- the guard took it in the cycle under way, so before is not known yet (R301) -/
  guard  : Bool := false
deriving DecidableEq, Repr

/-- The planner, monitors and AVS pins apart from their registers. -/
structure Ageing where
  /-- code on the pins, the planned code, and the code before the change under way (R303) -/
  vid   : Nat
  plan  : Nat
  back  : Nat
  /-- 0 no change under way, 1 waits for AVS_PGOOD, 2 settles; and since when -/
  avs   : Nat
  avsAt : Nat
  /-- action of the PLANNER record that the change under way posts when it has settled -/
  post  : Option Nat
  /-- planned ENG step, a clock step that waits for its epoch with the VID an undo needs, and the action of one for which the PLL relocks
  (R304) -/
  step  : Nat
  clock : Option (Nat × Option Nat)
  relock : Option Nat
  /-- M of the last cycle and the limiting canary -/
  m     : Int
  limit : Nat
  /-- latest slack, cycle minimum, Vmin, temperature and histogram -/
  slack : Tab Half
  low   : Tab Half
  vmin  : Tab Nat
  temp  : Tab (BitVec 12)
  hist  : Tab Word
  /-- samples since the cycle began, and when it began -/
  fresh : Bool
  since : Nat
  guarded : Bool
  /-- the canary of a sample on which the guard has still to act -/
  guardDue : Option Nat
  fault : Bool
  exhausted : Bool
  steps : List PlanStep
  changedAt : Nat
  hot   : Bool
  /-- time with VDD_CORE on outside BASIN since VDD_AON was applied, in 1/64 ns -/
  onFor : Nat
  /-- time the thermal histogram has not counted yet, in 1/64 ns (R298) -/
  histFor : Nat
deriving DecidableEq, Repr

/-! ### Ethernet (R356 to R375) -/

/-- A Sync as it left: origin timestamp, what was added to correctionField, the trailer of UDP/IPv6, and whether the MAC completed it. -/
structure SentSync where
  seconds : BitVec 48
  ns      : BitVec 32
  corr    : BitVec 64
  trailer : Half
  filled  : Bool
  /-- the UDP checksum field left as 0x0000 (R365) -/
  noSum   : Bool := false
deriving DecidableEq, Repr

/-- A frame Mbonik has queued at a MAC (R363, R358, R334). -/
inductive OutFrame where
  | sync
  | announce (g : GmData)
  | delayReq
  | delayResp
  | pdelayResp
  | pdelayRespFu
  | arp (mac : BitVec 48) (ip : Word)
  | neighbour (mac : BitVec 48) (ip : BitVec 128)
  | reply (slot : Nat) (words : List Half)
deriving DecidableEq, Repr

/-- A MAC apart from its registers. -/
structure Mac where
  link   : Bool
  anDone : Bool
  txLpi  : Bool
  rxLpi  : Bool
  /-- transmission is held by PAUSE until a time -/
  pause  : Option Nat
  /-- frames of Mbonik, oldest first; the datagram in the FIFO, as its ring and payload; and the ring last served (R370) -/
  frames : List OutFrame
  dg     : Option (Nat × List Byte)
  served : Nat
  ident  : Half
  /-- stamps of the last frame received and of the last event message sent, in 1/16 ns of TS (R360, R362), and the last Sync sent -/
  rxAt   : BitVec 36
  txAt   : BitVec 36
  sync   : Option SentSync
  /-- Announce messages received, and the last grandmaster identity -/
  announces : Nat
  gm     : BitVec 64
  /-- the last record datagram that left, from its destination address to its FCS (R370) -/
  left   : List Byte := []
deriving DecidableEq, Repr

/-- A MAC after reset. -/
def Mac.init : Mac :=
  { link := false, anDone := false, txLpi := false, rxLpi := false, pause := none, frames := [], dg := none, served := 127, ident := 0,
    rxAt := 0, txAt := 0, sync := none, announces := 0, gm := 0 }

/-- PTP and the servo apart from their registers (R363 to R369): STATE, offset and mean link delay as read, rate r as a fraction, the
integral in 2^-64 ppb and its last change, the last Sync (its arrival in hub PTP time and the grandmaster's time, both in 2^-16 ns, with
its interval), and what the SLAVE port has learned of the grandmaster; MDIO busy, its operation a read, and NOPHY (R373). -/
structure Ptp where
  state  : Nat
  offset : Word
  mld    : Word
  rate   : Nat × Nat
  integ  : Int
  last   : Option (Int × Int)
  syncAt : Nat
  annAt  : Nat
  logSync : Int
  gm     : Option GmData
  busy   : Bool
  reads  : Bool
  nophy  : Bool
deriving DecidableEq, Repr

/-! ### Command transports (R318 to R336) -/

/-- A transport: outstanding tags; complete replies not yet taken, oldest first; bytes of an incomplete packet, and when the last arrived;
DISC; and for a UDP slot its source, when it was last heard and the replies kept by tag and request CRC. -/
structure Transport where
  tags   : List Byte
  out    : List (List Half)
  sent   : Nat
  inbuf  : List Byte
  putAt  : Nat
  disc   : Bool
  source : Option (Bool × BitVec 128 × Half × Nat)
  heard  : Nat
  kept   : List (Byte × Half × List Half)
deriving DecidableEq, Repr

/-- A transport nobody has used. -/
def Transport.init : Transport :=
  { tags := [], out := [], sent := 0, inbuf := [], putAt := 0, disc := false, source := none, heard := 0, kept := [] }

/-- A packet accepted and not yet executed: transport and words. -/
structure Packet where
  t     : Nat
  words : List Half
deriving DecidableEq, Repr

/-- The host link apart from its registers (R325 to R329), and the packets accepted, oldest first (R323). -/
structure HostLink where
  ready  : Bool
  rdy    : Bool
  rdySeen : Bool
  sel    : Bool
  mode3  : Bool
  quad   : Bool
  /-- the header of a four-lane selection: ignored, writing or reading -/
  ignored : Bool
  writes : Bool
  reads  : Bool
  accepted : List Packet
  /-- STREAM_STOP that waits for IDLE, and since when (R345); a RESET whose reply is due, by transport and since when (R344) -/
  stopping : Option (Pkt × Nat)
  resetAt : Option (Nat × Nat)
  resetNow : Bool
deriving DecidableEq, Repr

/-! ### Security (R376 to R394) -/

/-- The running image as its checks left it (R381, R383, R387). -/
structure RunningImage where
  version : Half
  enc     : Bool
  slot    : Nat
  revoke  : Bool
  arb     : BitVec 64
  dbgHash : BitVec 256
  taskHash : BitVec 256
deriving DecidableEq, Repr

/-- Security apart from its registers: debug state, the lifecycle change that waits for reset, consecutive failures, the nonce
outstanding and the nonces drawn, the running image, ARB slots that failed to read back, ARB_FULL, and FW_COMMIT's standing (R354). -/
structure Sec where
  dbg     : BitVec 2
  pend    : Option (BitVec 2)
  fails   : Nat
  lockout : Bool
  nonce   : Option Nat
  drawn   : Nat
  image   : Option RunningImage
  arbBad  : BitVec 16
  arbFull : Bool
  arbDue  : Bool
  staged  : Nat
  /-- slot that was booted, and SEQ and SLOT of the selector records as last read or written, none for one that is not valid (R402) -/
  bootSlot : Nat
  selectors : List (Option (Nat × Nat)) := [none, none]
deriving DecidableEq, Repr

/-! ### Boundary scan (R407 to R416) -/

/-- The TAP: instruction in force, REFUSED, the DBGACC register, the HEALTHRD register, the boundary update stage, and the copy made at
entry to HOLLOW or BASIN. -/
structure Tap where
  ir      : Byte
  refused : Bool
  capture : Byte
  data    : Word
  addr    : Word
  err     : Bool
  ended   : Bool
  health  : BitVec 256
  cells   : BitVec 742
  copy    : Option (List Word)
deriving DecidableEq, Repr

/-! ### The hub as a whole -/

/-- Everything the hub holds apart from its memory and the commands that wait. -/
structure Hub where
  /-- registers in force, by fabric byte address; a register not listed has its reset value -/
  regs : Tab Word
  /-- last values written to SH fields and not committed, and values a COMMIT has captured (R7, R126) -/
  held : Tab Word
  capt : Tab Word
  /-- holding registers of counters wider than a register, by the address of the low word (R13) -/
  hold : Tab (BitVec 128)
  /-- data of the last fabric read -/
  readData : BitVec 128
  /-- uses made of the free value (the model's own) -/
  free : Nat
  /-- time elapsed in 1/64 ns by REFCLK, the oscillator or the crystal, whichever the hub runs on (the model's own) -/
  now : Nat
  tb : TimeBase
  /-- Mbonik runs: it has reported READY and the Col pair is neither halted nor stopped (R21, R400) -/
  mbonik : Bool
  streams : Tab Stream
  flight : List Flight
  /-- task images Mbonik has loaded, by TASK_ID, and whether each is signed (R254, R385) -/
  images : Tab Bool
  /-- samples handed to the stamp unit and not yet taken (R16) -/
  handoff : List (Nat × Sample)
  /-- records at stage 7 and the recognisers that tap them, in order (R200) -/
  taps : List (Nat × Flight)
  /-- window edges on their way to recognisers: recogniser, open or close, edge (R105) -/
  winEdges : List (Nat × Bool × WinEdge)
  /-- SID 0 records formed in the command under way, oldest first; stored before it ends (R63) -/
  sysq : List Record
  ang : Angle
  groups : Tab Group
  /-- physical unit behind each logical slice, context and engine that is not the one of its own number, by type code times
      256 plus logical number, and the state of every physical unit that is not as shipped (R41, R118) -/
  behind : Tab Nat
  units : Tab (BitVec 2)
  hs : Tab HSlice
  ms : Tab MSlice
  rs : Tab Rsmp
  /-- the PORT tick of the last SYNC of Bank M (R124) -/
  lastSync : Option Instant
  recs : Tab Recog
  /-- triggers of the record at stage 7 whose actions wait for its last tap (R211) -/
  fired : List Fired
  eqs : Tab EventQueue
  rings : Tab Ring
  /-- batch SRAM banks out of service (R42, R234) -/
  bankOut : BitVec 16
  tx : Tab TxEntry
  schPend : Bool
  /-- number of triggers that have fallen due (R189) -/
  seq : Nat
  /-- the queues of SP0 to SP15 (0 to 15) and TW0 to TW7 (16 to 23) -/
  queues : Tab PortQueue
  sps : Tab SerialPort
  tws : Tab TwoWirePort
  /-- entries that schedule entries have triggered in the present tick (R186) -/
  acquired : List Nat
  /-- flash frames of Mbonik that have still to enter SP0's queue (R159, R184) -/
  flashDue : Nat
  probes : Tab Probe
  engines : Tab Engine
  /-- outbound requests of all engines in the order of issue (R245, R248) -/
  outq : List (Nat × EngReq)
  /-- the initiator each target port granted last in the class of engines and Col pair (R27) -/
  grants : Tab Nat
  /-- errors SECDED has corrected, by SRAM bank (R29) -/
  corrected : Tab Nat
  rp : Repair
  pwr : Power
  lay : Layout
  /-- SRAM rows and columns repaired since reset, by bank (R42, R403) -/
  sramRows : List (Nat × Nat)
  sramCols : List (Nat × Nat)
  age : Ageing
  macs : Tab Mac
  ptp : Ptp
  /-- datagrams formed by each ring since it was enabled (R371) -/
  dgSeq : Tab Nat
  /-- rings whose FLUSH_MS has run out (R231) -/
  dgDue : List Nat
  hl : HostLink
  /-- transports 0 host link, 1 to 8 two-wire, 9 to 12 UDP slots (R336) -/
  xps : Tab Transport
  sec : Sec
  tap : Tap
  /-- out of range now: VDDIO_B, VDD_SD, VDD_PLL, the crystal, VDDH_SD (R421) -/
  supply : BitVec 5
  /-- what the watchdog has counted, in 1/64 ns; and when boot is repeated after a failure (R399, R404) -/
  wdt : Nat
  retryAt : Option Nat
  /-- OTP word TW_BOOT (R405) -/
  twBoot : Option Half
  /-- lifecycle state held in OTP: 0 BLANK, 1 DEVELOP, 2 FIELD, 3 RETURN (R376) -/
  lc : BitVec 2
deriving DecidableEq, Repr

/-- The machine: the hub, its storage and its queue of waiting commands, first in, first out. -/
structure State where
  hub : Hub
  /-- every storage byte that is not zero, by address, strictly rising (log 2) -/
  mem : List Host.Cell
  pending : List Instr
deriving DecidableEq, Repr

/-! ### The state after reset (R397, R400, R406) -/

/-- The time base after reset (R71, R397). -/
def TimeBase.init : TimeBase :=
  { acc := 0, wraps := 0, halfwraps := 0, epochS := 0, epochNs := 0, epochValid := false, armed := false, setDone := false, lock := false,
    holdover := false, onCrystal := false, commitPend := false, repairPend := false, setPend := none, calFail := 0, calDone := 0,
    delay := [], board := [], measures := 0, epochPhase := 0, epochs := 0, wrapDue := false, halfDue := false, epochDue := false,
    staleWraps := 0, rearmDue := false, beat := 0, lines := [] }

/-- The crank decoder after reset (R91). -/
def Crank.init : Crank :=
  { state := .search, prev := .search, loss := 0, reverse := false, last := none, per := none, perPrev := none, pred := none, period := 0,
    regular := 0, count := 0, extra := false, camHalf := none, camRead := 0, camAt := 0, seen0 := false, seen1 := false, bad := 0, rise := none,
    held := none, lastAt := 0, edges := 0, run := Course.init, olds := [] }

/-- The angle unit after reset (R89 to R110). -/
def Angle.init : Angle :=
  { crank := Crank.init, dist := [], ase := [], lastPos := [], firing := [], passed := 0, acts := [], disarmAll := false, angLevel := 0, trgLevel := 0,
    pulses := [], tout := [], wakeEdges := [] }

/-- The self-repair unit after reset (R297). -/
def Repair.init : Repair :=
  { shadows := [], otp := [], due := [], badChk := 0, late := false, returning := [], stealing := false, load := 0, high := 0, low := 0 }

/-- The governor after reset (R306, R317). -/
def Power.init : Power :=
  { state := 0, target := 0, block := 0, entering := false, since := none, holds := [], health := [], samples := 0,
    loads := [], dropped := 0, wraps0 := 0, enterAt := 0 }

/-- The planner after reset: VID 16, as RST_STATUS after AON_LOST has it (R303, R406). -/
def Ageing.init : Ageing :=
  { vid := 16, plan := 16, back := 16, avs := 0, avsAt := 0, post := none, step := 0, clock := none, relock := none, m := 0, limit := 0, slack := [],
    low := [], vmin := [], temp := [], hist := [], fresh := false, since := 0, guarded := false, guardDue := none, fault := false,
    exhausted := false, steps := [], changedAt := 0, hot := false, onFor := 0, histFor := 0 }

/-- PTP after reset (R375). -/
def Ptp.init : Ptp :=
  { state := 0, offset := 0, mld := 0, rate := (1, 1), integ := 0, last := none, syncAt := 0, annAt := 0, logSync := 0, gm := none,
    busy := false, reads := false, nophy := false }

/-- The host link after reset (R329). -/
def HostLink.init : HostLink :=
  { ready := false, rdy := false, rdySeen := false, sel := false, mode3 := false, quad := false, ignored := false, writes := false,
    reads := false, accepted := [], stopping := none, resetAt := none, resetNow := false }

/-- Security after reset in BLANK: debug state FACTORY (R386). -/
def Sec.init : Sec :=
  { dbg := 2, pend := none, fails := 0, lockout := false, nonce := none, drawn := 0, image := none, arbBad := 0, arbFull := false,
    arbDue := false, staged := 0, bootSlot := 0 }

/-- The TAP in Test-Logic-Reset: IDCODE (R407). -/
def Tap.init : Tap :=
  { ir := 0x02, refused := false, capture := 0x01, data := 0, addr := 0, err := false, ended := false, health := 0, cells := 0,
    copy := none }

/-- The Layout Table before it is built (R35). -/
def Layout.init : Layout := { gen := 0, ts := 0, facts := LayoutFacts.init, changed := false, next := none }

/-- The hub after a reset of kind POWER_ON with VDD_AON lost, before its boot (R397, R406): RST_STATUS holds CAUSE 1, AON_LOST 1 and
LAST_VID 0x10. -/
def Hub.reset : Hub :=
  { regs := [(0x10060, 0x109)], held := [], capt := [], hold := [], readData := 0, free := 0, now := 0, tb := TimeBase.init,
    mbonik := false, streams := [], flight := [], images := [], handoff := [], taps := [], winEdges := [], sysq := [], ang := Angle.init,
    groups := [], behind := [], units := [], hs := [], ms := [], rs := [], lastSync := none, recs := [], fired := [], eqs := [], rings := [],
    bankOut := 0, tx := [], schPend := false, seq := 0, queues := [], sps := [], tws := [], acquired := [], flashDue := 0, probes := [], engines := [],
    outq := [], grants := [], corrected := [], rp := Repair.init, pwr := Power.init, lay := Layout.init, sramRows := [], sramCols := [],
    age := Ageing.init, macs := [], ptp := Ptp.init, dgSeq := [], dgDue := [], hl := HostLink.init, xps := [], sec := Sec.init, tap := Tap.init,
    supply := 0, wdt := 0, retryAt := none, twBoot := none, lc := 0 }

/-- The machine right after reset: nothing in storage is listed, and no command waits. (log 14: DESIGN CHOICE) -/
def State.reset : State := { hub := Hub.reset, mem := [], pending := [] }

end Sys2Proof.Machine
end

