-- ==== Sys2Proof/Machine/Map.lean ====
section
/-! DEFINITION. The register map: where each block sits (R33), and the access code, reset value and accepted values of every
field the spec gives a register. Read-only fields that a block computes from its own state are not listed here: the block's
own file gives their value. -/

namespace Sys2Proof.Machine

/-- Access codes (R7). Fields that read as a function of other state have no entry in the map. -/
inductive Acc where
  | rw
  | ro
  | wo
  | w1c
  | rc
  | sh
  | lk
deriving DecidableEq, Repr

/-- The values a field accepts: the others are reserved encodings (R11). -/
inductive Chk where
  | any
  | upTo (n : Nat)
  | span (lo hi : Nat)
  | oneOf (l : List Nat)
  | notIn (lo hi : Nat)
deriving DecidableEq, Repr

/-- A value is none of a field's reserved encodings. -/
def Chk.ok (c : Chk) (v : Nat) : Bool :=
  match c with
  | .any => true
  | .upTo n => decide (v ≤ n)
  | .span lo hi => decide (lo ≤ v ∧ v ≤ hi)
  | .oneOf l => l.contains v
  | .notIn lo hi => !decide (lo ≤ v ∧ v ≤ hi)

/-- One field of a register. -/
structure Fld where
  lsb   : Nat
  width : Nat
  acc   : Acc
  reset : Nat
  chk   : Chk
deriving DecidableEq, Repr

def fRw (lsb width : Nat) (reset : Nat := 0) (chk : Chk := .any) : Fld := ⟨lsb, width, .rw, reset, chk⟩
def fRo (lsb width : Nat) (reset : Nat := 0) : Fld := ⟨lsb, width, .ro, reset, .any⟩
def fWc (lsb width : Nat) : Fld := ⟨lsb, width, .w1c, 0, .any⟩
def fRc (lsb width : Nat) : Fld := ⟨lsb, width, .rc, 0, .any⟩
def fSh (lsb width : Nat) (reset : Nat := 0) (chk : Chk := .any) : Fld := ⟨lsb, width, .sh, reset, chk⟩
def fLk (lsb width : Nat) (reset : Nat := 0) (chk : Chk := .any) : Fld := ⟨lsb, width, .lk, reset, chk⟩

/-- The blocks of the address map (R33), each split into its pages and its common registers. -/
inductive Blk where
  | layout
  | sys
  | tb
  | ang
  | ase
  | hch
  | hbc
  | mch
  | mbc
  | rsm
  | rsc
  | rom
  | recog
  | recc
  | ctx
  | tx
  | probe
  | sch
  | sp
  | tw
  | twc
  | hl
  | eq
  | eqc
  | ring
  | ringc
  | mac
  | ptp
  | rep
  | sec
  | keys
  | eng
deriving DecidableEq, Repr

/-- A register's place: its block, the instance and the offset in the instance's page. -/
structure Loc where
  blk : Blk
  idx : Nat
  off : Nat
deriving DecidableEq, Repr

/-- Bits [lsb + width - 1 : lsb] of a word. -/
def bits (w : Word) (lsb width : Nat) : Nat := (w.toNat >>> lsb) % 2 ^ width

/-- A word with bits [lsb + width - 1 : lsb] replaced. -/
def setBits (w : Word) (lsb width v : Nat) : Word :=
  let m : Word := BitVec.ofNat 32 ((2 ^ width - 1) <<< lsb)
  (w &&& ~~~ m) ||| (BitVec.ofNat 32 (v <<< lsb) &&& m)

/-- The reset value of a register. -/
def resetWord (fs : List Fld) : Word := fs.foldl (fun w f => setBits w f.lsb f.width f.reset) 0

/-! ### Fields, block by block -/

/-- System control (R22, R36, R297, R305 and R317 give other pages their own tables). -/
def sysFields (off : Nat) : List Fld :=
  match off with
  | 0x040 => [fRw 0 7, fRw 7 1, fRw 8 5 0x1F, fRw 16 4 0xF]
  | 0x044 => [fRc 0 16]
  | 0x048 => [fWc 0 3]
  | 0x04C => [fRo 0 32]
  | 0x050 => [fWc 0 3]
  | 0x060 => [fRo 0 32]
  | 0x064 => [fRw 0 16 0x07D0 (.span 10 65535), fRw 16 1 1]
  | 0x06C => [fRo 0 32]
  | 0x070 => [fWc 0 4]
  | 0x07C => [fWc 0 3]
  | 0x100 => [fRw 0 16, fRw 16 3 4 (.upTo 4), fRw 20 1]
  | 0x104 => [fRw 0 8 0x0A (.span 1 255), fRw 8 3 4, fRw 12 2 2 (.upTo 2), fRw 16 16 0x03E8 (.span 1 65535)]
  | 0x108 => [fRw 0 4, fRw 4 1, fRw 8 4, fRw 12 1, fRw 16 16]
  | 0x10C => [fRw 0 4, fRw 4 4, fRw 8 1, fRw 9 1, fRw 10 1]
  | 0x110 => [fRw 0 32]
  | 0x118 => [fWc 0 9, fRw 16 9]
  | 0x11C => [fRc 0 16, fRc 16 8, fRc 24 8]
  | 0x17C => [fWc 0 2]
  | _ => []

/-- Time base (R71). -/
def tbFields (off : Nat) : List Fld :=
  match off with
  | 0x008 => [fSh 0 32]
  | 0x00C => [fSh 0 8 4]
  | 0x010 => [fSh 0 32 0x94000000]
  | 0x014 => [fSh 0 16 0x7735]
  | 0x040 => [fLk 0 32]
  | 0x044 => [fLk 0 16]
  | 0x048 => [fLk 0 30 0 (.upTo 999999999)]
  | 0x050 => [fRw 0 12]
  | 0x054 => [fRw 0 12]
  | 0x058 => [fRw 0 12]
  | 0x05C => [fRw 0 12]
  | 0x07C => [fWc 0 6]
  | _ => []

/-- Divisors of a number, from 1 to n: the tooth counts TEETH_M1 accepts (R91). -/
def divides (n d : Nat) : Bool := d != 0 && n % d == 0

/-- Angle unit (R89, R91, R99, R106, R109 to R111). -/
def angFields (off : Nat) : List Fld :=
  if off < 0x020 ∧ off % 4 = 0 then [fLk 0 8, fLk 8 2 0 (.upTo 2)] else
  if 0x080 ≤ off ∧ off < 0x100 then
    match off % 0x20 with
    | 0x00 => [fRw 0 1]
    | 0x04 => [fLk 0 3, fLk 4 4, fLk 8 1]
    | 0x08 => [fLk 0 32 0 (.span 1 0xFFFFF)]
    | 0x0C => [fLk 0 16 0x64, fLk 16 16 0x3E8 (.span 1 65535)]
    | 0x18 => [fRc 0 16]
    | _ => []
  else
  if 0x140 ≤ off ∧ off < 0x160 ∧ off % 4 = 0 then [fRw 0 1, fLk 1 1] else
  match off with
  | 0x020 => [fWc 8 8]
  | 0x040 => [fRw 0 1]
  | 0x044 => [fLk 0 8 0x3B, fLk 8 2 2, fLk 10 1, fLk 12 3]
  | 0x048 => [fLk 0 16 0 (.upTo 23039), fLk 16 1, fLk 17 3 1, fLk 20 1, fLk 22 2 0 (.upTo 2), fLk 24 3]
  | 0x04C => [fLk 0 16 0 (.upTo 23039), fLk 16 16 0 (.upTo 23039)]
  | 0x050 => [fLk 0 16, fLk 16 16 0x1F4 (.span 1 65535)]
  | 0x06C => [fRc 0 8, fRc 8 8, fRc 16 8, fRc 24 8]
  | 0x100 => [fRw 0 1]
  | 0x180 => [fRw 0 8, fRw 8 8 4 (.span 1 255), fRw 16 16 0x3E8]
  | 0x1FC => [fWc 0 2]
  | _ => []

/-- A schedule entry (R102). -/
def aseFields (off : Nat) : List Fld :=
  match off with
  | 0x0 => [fRw 0 32]
  | 0x4 => [fLk 0 3, fLk 4 3, fLk 8 8, fLk 16 5, fLk 21 1, fLk 24 4, fLk 30 1]
  | 0x8 => [fLk 0 32]
  | _ => []

/-- A Bank H page (R118). Spare pages have no configuration of their own. -/
def hchFields (n off : Nat) : List Fld :=
  if n ≥ 48 then [] else
  match off with
  | 0x00 => [fSh 0 3 4 (.span 3 5), fSh 16 10 0x10 (.span 4 512)]
  | 0x04 => [fSh 0 8 0x01 (.notIn 0x30 0x3F), fSh 8 8 0x01 (.notIn 0x30 0x3F), fSh 16 2 1 (.upTo 2),
      fSh 24 8 0x18 (.notIn 0x30 0x3F)]
  | 0x08 => [fSh 0 16]
  | 0x0C => [fLk 0 2]
  | 0x14 => [fRc 0 16]
  | _ => []

/-- Registers common to Bank H (R119). -/
def hbcFields (off : Nat) : List Fld :=
  match off with
  | 0xF000 => [fLk 0 6 0x0A (.span 10 50)]
  | 0xF004 => [fLk 0 6 0x0A (.span 10 50)]
  | 0xF008 => [fLk 0 6 0x0A (.span 10 50)]
  | 0xF00C => [fLk 0 6 0x0A (.span 10 50)]
  | 0xF010 => [fRw 0 4]
  | 0xF040 => [fRc 0 16]
  | 0xF07C => [fWc 0 5, fRo 16 6]
  | _ => []

/-- A Bank M page (R122). -/
def mchFields (n off : Nat) : List Fld :=
  if n ≥ 64 then [] else
  match off with
  | 0x00 => [fSh 0 4, fSh 4 2 0 (.upTo 2), fLk 6 1, fSh 16 8 0 (.notIn 0x30 0x3F), fSh 24 8 0 (.notIn 0x30 0x3F)]
  | 0x0C => [fRc 0 16, fRc 16 16]
  | _ => []

/-- Registers common to Bank M (R123). -/
def mbcFields (off : Nat) : List Fld :=
  match off with
  | 0xF000 => [fRw 1 1]
  | 0xF004 => [fRc 0 16]
  | 0xF040 => [fRc 0 16]
  | 0xF07C => [fWc 0 3, fRo 16 7]
  | _ => []

/-- A resampler page (R145). -/
def rsmFields (n off : Nat) : List Fld :=
  if n ≥ 32 then [] else
  match off with
  | 0x00 => [fSh 0 10 0x10 (.span 1 1000), fSh 16 10 0 (.upTo 999)]
  | 0x04 => [fSh 0 8 0x2B (.upTo 0x2F), fSh 8 8]
  | 0x10 => [fRc 0 16, fRc 16 16]
  | _ => []

/-- Registers common to the resamplers (R146). -/
def rscFields (off : Nat) : List Fld :=
  match off with
  | 0x7040 => [fRc 0 16]
  | 0x707C => [fWc 0 4, fRo 16 6]
  | _ => []

/-- A recogniser page (R216). -/
def recogFields (off : Nat) : List Fld :=
  match off with
  | 0x00 => [fRw 0 1]
  | 0x04 => [fLk 0 3 0 (.upTo 5), fLk 4 3 0 (.oneOf [0, 1, 2, 3, 7]), fLk 7 1, fSh 8 2 0 (.upTo 2), fLk 10 1, fLk 11 1, fLk 12 1,
      fLk 13 2, fLk 15 1, fLk 16 4, fLk 20 5, fLk 25 5]
  | 0x08 => [fSh 0 32 0x7FFFFFFF]
  | 0x0C => [fSh 0 32 0x7FFFFFFF]
  | 0x10 => [fSh 0 32]
  | 0x14 => [fLk 0 7, fLk 7 1, fLk 8 7, fLk 15 1, fLk 16 7, fLk 23 1, fLk 24 7, fLk 31 1]
  | 0x18 => [fSh 0 16, fSh 16 8 0x0A (.span 1 255)]
  | 0x1C => [fSh 0 1, fSh 1 5, fSh 8 4, fSh 12 6, fSh 18 1, fSh 19 1, fSh 20 1, fSh 21 2 0 (.upTo 2)]
  | 0x20 => [fSh 0 7]
  | 0x24 => [fSh 0 20]
  | 0x28 => [fSh 0 20]
  | 0x3C => [fRc 0 16, fRc 16 8, fRc 24 8]
  | 0x40 => [fRc 0 16, fRc 16 8, fRc 24 8]
  | _ => []

/-- Registers common to the recognisers (R217). -/
def reccFields (off : Nat) : List Fld :=
  match off with
  | 0xF000 => [fWc 0 32]
  | 0xF004 => [fWc 0 32]
  | 0xF008 => [fWc 0 32]
  | 0xF00C => [fWc 0 32]
  | 0xF040 => [fRc 0 16]
  | 0xF07C => [fWc 0 3, fRo 16 8]
  | _ => []

/-- A stream context (R64). -/
def ctxFields (off : Nat) : List Fld :=
  match off with
  | 0x08 => [fLk 0 4 0 (.upTo 6), fLk 8 8]
  | 0x0C => [fLk 0 8, fLk 8 2 0 (.upTo 2), fLk 16 5, fLk 23 1]
  | 0x10 => [fLk 0 2, fLk 4 3 0 (.upTo 5)]
  | 0x14 => [fSh 0 32]
  | 0x18 => [fLk 0 8, fLk 8 1]
  | 0x1C => [fSh 0 7, fSh 7 1]
  | 0x20 => [fSh 0 32]
  | 0x24 => [fSh 0 32]
  | 0x28 => [fSh 0 32]
  | 0x2C => [fSh 0 32]
  | 0x38 => [fRc 0 16, fRc 16 16]
  | 0x3C => [fWc 0 4]
  | _ => []

/-- A transaction entry (R181). -/
def txFields (off : Nat) : List Fld :=
  match off with
  | 0x00 => [fRw 0 1]
  | 0x04 => [fLk 0 4, fLk 4 1, fSh 5 3, fSh 8 3, fSh 16 10]
  | 0x08 => [fLk 0 2, fSh 2 2, fLk 4 3, fLk 7 1, fLk 8 7, fLk 16 6, fLk 22 1, fSh 24 8]
  | 0x0C => [fSh 0 32 0xF4240 (.span 1000 2000000000)]
  | 0x10 => [fSh 0 32]
  | 0x14 => [fSh 0 11, fSh 16 6 0x0F, fSh 24 1, fSh 25 1]
  | 0x1C => [fRc 0 16, fRc 16 16]
  | _ => []

/-- A probe entry (R195). -/
def probeFields (off : Nat) : List Fld :=
  match off with
  | 0x00 => [fRw 0 1, fLk 1 3 0 (.upTo 4), fLk 4 6, fLk 10 2, fLk 12 4 3 (.span 1 15), fLk 16 14 0x64 (.span 10 10000)]
  | 0x04 => [fLk 0 10, fLk 16 3, fLk 20 3]
  | 0x08 => [fLk 0 32]
  | 0x0C => [fLk 0 32]
  | 0x14 => [fRo 0 32]
  | 0x18 => [fRc 0 8, fRc 8 8, fRc 16 16]
  | _ => []

/-- The scheduler's common registers (R187, R194). -/
def schFields (off : Nat) : List Fld :=
  if 0xF100 ≤ off ∧ off < 0xF120 ∧ off % 4 = 0 then [fLk 0 8, fLk 8 2 0 (.upTo 2)] else
  match off with
  | 0xF040 => [fRc 0 16]
  | 0xF07C => [fWc 0 3, fRo 16 8]
  | 0xF120 => [fWc 8 8]
  | _ => []

/-- A queue's page (R225). -/
def eqFields (off : Nat) : List Fld :=
  match off with
  | 0x20 => [fWc 10 1]
  | 0x24 => [fRc 0 16]
  | 0x28 => [fRw 0 1, fRw 4 4]
  | _ => []

/-- Registers common to the queues (R225). -/
def eqcFields (off : Nat) : List Fld :=
  match off with
  | 0xF040 => [fRc 0 16]
  | 0xF07C => [fWc 0 3, fRo 16 5]
  | _ => []

/-- A ring descriptor (R236). -/
def ringFields (off : Nat) : List Fld :=
  match off with
  | 0x00 => [fRw 0 1]
  | 0x04 => [fLk 0 12, fLk 16 12]
  | 0x08 => [fLk 0 1, fLk 1 2 0 (.upTo 2)]
  | 0x0C => [fRw 0 21, fRw 24 1, fRw 25 7]
  | 0x28 => [fRc 0 16, fRc 16 16]
  | 0x2C => [fRc 0 16, fRc 16 16]
  | _ => []

/-- Registers common to the rings (R236). -/
def ringcFields (off : Nat) : List Fld :=
  match off with
  | 0xF000 => [fWc 0 32]
  | 0xF004 => [fWc 0 32]
  | 0xF008 => [fWc 0 32]
  | 0xF00C => [fWc 0 32]
  | 0xF040 => [fRc 0 16]
  | 0xF07C => [fWc 0 5, fRo 16 7]
  | _ => []

/-- A serial port's page (R154). SP2 to SP15 have one lane, SDR and HALF of 4 or more. -/
def spFields (n off : Nat) : List Fld :=
  let wide := decide (n < 2)
  let lane : Chk := if wide then .any else .upTo 0
  if 0x100 ≤ off ∧ off < 0x200 then
    match off % 0x20 with
    | 0x00 => [fSh 0 2, fSh 2 2, fSh 4 8 8 (.span (if wide then 1 else 4) 255), fSh 12 5 4 (.span 1 31), fSh 17 5 4 (.span 1 31)]
    | 0x04 => [fSh 0 5 0 (.upTo 16), fSh 5 2 0 lane, fSh 7 1 0 lane, fSh 8 6 0 (.upTo 32), fSh 14 2 0 lane, fSh 16 1 0 lane, fSh 17 5,
        fSh 22 2 0 lane, fSh 24 1 0 lane]
    | 0x08 => [fSh 0 7 0 (.upTo 64), fSh 8 2 1, fSh 10 1, fSh 11 1]
    | 0x0C => [fSh 0 1, fSh 1 6, fSh 8 5, fSh 16 4, fSh 20 4, fSh 24 8]
    | 0x10 => [fSh 0 16]
    | 0x14 => [fSh 0 32]
    | _ => []
  else if 0x400 ≤ off ∧ off < 0xC00 then (if off % 4 = 0 then [fSh 0 32] else [])
  else if 0xC00 ≤ off ∧ off < 0xD00 then (if off % 4 = 0 then [fRo 0 32] else [])
  else
  match off with
  | 0x000 => [fRw 0 1]
  | 0x004 => [fLk 0 5 4, fLk 8 5 4 (.span 2 31)]
  | 0x00C => [fRc 0 16, fRc 16 16]
  | 0x040 => [fRc 0 16]
  | 0x07C => [fWc 0 4, fRo 16 3]
  | _ => []

/-- A two-wire port's page (R179). -/
def twFields (off : Nat) : List Fld :=
  if 0x100 ≤ off ∧ off < 0x200 then
    match off % 0x20 with
    | 0x00 => [fSh 0 1, fSh 1 1 1, fSh 2 1, fSh 4 4 1 (.upTo 8), fSh 8 6 2 (.upTo 32), fSh 16 4, fSh 20 4 3, fSh 24 8]
    | 0x04 => [fSh 0 32]
    | 0x08 => [fSh 0 32]
    | 0x0C => [fSh 0 1, fSh 1 5, fSh 8 3, fSh 12 3, fSh 16 4]
    | _ => []
  else if 0x080 ≤ off ∧ off < 0x090 ∧ off % 4 = 0 then [fLk 0 7 8 (.span 8 0x77), fLk 8 1, fLk 9 1]
  else if 0xC00 ≤ off ∧ off < 0xC20 ∧ off % 4 = 0 then [fRo 0 32]
  else
  match off with
  | 0x000 => [fRw 0 1, fRw 4 1]
  | 0x004 => [fLk 0 1, fLk 1 1 1, fLk 2 1, fLk 8 6 0x1E (.span 25 35)]
  | 0x010 => [fSh 0 16 0x0758, fSh 16 16 0x0762]
  | 0x014 => [fSh 0 16 0x0758, fSh 16 16 0x0640]
  | 0x018 => [fSh 0 16 0x0640, fSh 16 16 0x0758]
  | 0x01C => [fSh 0 10 0x078, fSh 16 10 0x064, fSh 26 6 4]
  | 0x024 => [fRc 0 8, fRc 8 8, fRc 16 8, fRc 24 8]
  | 0x028 => [fRc 0 8, fRc 8 8, fRc 16 8, fRc 24 8]
  | 0x02C => [fRc 0 16, fRc 16 16]
  | 0x030 => [fRc 0 8]
  | 0x040 => [fRc 0 16]
  | 0x07C => [fWc 0 4, fRo 16 3]
  | 0x090 => [fLk 0 7, fLk 8 1]
  | _ => []

/-- The two-wire block has no common registers (R33, R179). -/
def twcFields (_off : Nat) : List Fld := []

/-- The host link (R336). -/
def hlFields (off : Nat) : List Fld :=
  if 0x100 ≤ off ∧ off < 0x168 ∧ off % 4 = 0 then [fRc 0 8, fRc 8 8, fRc 16 8, fRc 24 8] else
  match off with
  | 0x000 => [fRw 0 1, fRw 1 1 1, fRw 2 1 1]
  | 0x040 => [fRc 0 16]
  | 0x050 => [fRw 0 1, fLk 1 2 0 (.upTo 2), fLk 16 16 0x1E61 (.span 1 65535)]
  | 0x054 => [fRc 8 8, fRc 16 8]
  | 0x07C => [fWc 0 2]
  | _ => []

/-- A MAC (R374). -/
def macFields (off : Nat) : List Fld :=
  match off with
  | 0x000 => [fRw 0 1, fLk 1 2 0 (.upTo 1), fLk 3 1 1, fLk 4 1, fLk 5 1]
  | 0x008 => [fLk 0 32]
  | 0x00C => [fLk 0 16]
  | 0x010 => [fLk 0 32]
  | 0x014 => [fLk 0 2, fLk 8 6, fLk 16 12, fLk 28 3, fLk 31 1]
  | 0x020 => [fLk 0 32]
  | 0x024 => [fLk 0 32]
  | 0x028 => [fLk 0 32]
  | 0x02C => [fLk 0 32]
  | 0x030 => [fLk 0 32]
  | 0x034 => [fLk 0 16]
  | 0x038 => [fLk 0 32]
  | 0x03C => [fLk 0 16 0x1E62 (.span 1 65535), fLk 16 16 0x1E62 (.span 1 65535)]
  | 0x040 => [fRc 0 16]
  | 0x044 => [fLk 0 1]
  | 0x050 => [fLk 0 32]
  | 0x054 => [fLk 0 32]
  | 0x058 => [fLk 0 32]
  | 0x05C => [fLk 0 32]
  | 0x060 => [fRw 0 32]
  | 0x064 => [fRw 0 32]
  | 0x070 => [fRc 0 16, fRc 16 16]
  | 0x074 => [fRc 0 8, fRc 8 8, fRc 16 8, fRc 24 8]
  | 0x078 => [fRc 0 8, fRc 8 8]
  | 0x07C => [fWc 0 2]
  | _ => []

/-- PTP, the servo and MDIO (R375). Signed exponents keep their four bits. -/
def ptpFields (off : Nat) : List Fld :=
  match off with
  | 0x000 => [fLk 0 1, fLk 1 2 0 (.upTo 2), fLk 8 8, fLk 16 2, fLk 18 2,
      fLk 20 4 0xD (.oneOf [9, 10, 11, 12, 13, 14, 15, 0, 1, 2, 3]), fLk 24 4 0 (.oneOf [13, 14, 15, 0, 1, 2, 3, 4])]
  | 0x004 => [fRw 0 1]
  | 0x008 => [fRw 0 1 1, fRw 8 4 1, fRw 12 4 4, fRw 16 16 0x03E8 (.span 1 65535)]
  | 0x020 => [fRw 0 8 0xA0 (.span 80 255), fRw 8 1]
  | 0x024 => [fRw 0 3 0 (.upTo 4), fRw 8 5, fRw 16 5]
  | 0x028 => [fRw 0 16]
  | 0x07C => [fWc 0 3]
  | _ => []

/-- Self-repair (R297) and ageing (R305). -/
def repFields (off : Nat) : List Fld :=
  match off with
  | 0x000 => [fRw 0 1 1, fRw 2 1 1]
  | 0x020 => [fRc 0 8, fRc 8 8, fRc 16 8, fRc 24 4, fRc 28 4]
  | 0x024 => [fRc 0 8, fRc 8 8, fRc 16 8, fRc 24 4, fRc 28 4]
  | 0x028 => [fRc 0 8, fRc 8 8, fRc 16 8, fRc 24 4, fRc 28 4]
  | 0x02C => [fRc 0 8, fRc 8 8, fRc 16 8, fRc 24 4, fRc 28 4]
  | 0x030 => [fRo 0 2, fRo 4 7, fRo 12 4, fRo 16 4]
  | 0x07C => [fWc 0 3]
  | 0x100 => [fRw 0 1 1, fRw 8 8 0x14]
  | 0x104 => [fWc 12 1]
  | _ => []

/-- Security (R394). -/
def secFields (off : Nat) : List Fld :=
  match off with
  | 0x020 => [fRo 0 32]
  | 0x07C => [fWc 0 4]
  | _ => []

/-- An engine's page (R258). -/
def engFields (off : Nat) : List Fld :=
  if 0x80 ≤ off ∧ off < 0xC0 ∧ off % 4 = 0 then [fLk 0 15 0 (.span 0x100 0x7FFF), fLk 15 1, fLk 16 8, fLk 24 8] else
  match off with
  | 0x00 => [fRw 0 1, fRw 1 1, fRw 3 1]
  | 0x18 => [fRc 0 16, fRc 16 8, fRc 24 8]
  | 0x1C => [fWc 0 2, fRw 8 1, fRw 9 1]
  | 0x40 => [fRc 0 16]
  | 0x7C => [fWc 0 5]
  | _ => []

end Sys2Proof.Machine
end

