-- ==== Sys2Proof/Machine/Ops.lean ====
section
/-! DEFINITION. The named operations every meaning is made of: sparse tables, storage, register fields with their access codes
(R7 to R13), SH commits (R7, R8, R126), error flags (R9), counters, and the arithmetic the spec uses throughout. -/

namespace Sys2Proof.Machine

/-! ### Sparse tables -/

/-- The entry of an index, if the table lists it. -/
def tget {α : Type} (t : Tab α) (k : Nat) : Option α :=
  match t with
  | [] => none
  | (j, v) :: r => if j = k then some v else tget r k

/-- The table with an entry set, its indices kept strictly rising. -/
def tput {α : Type} (t : Tab α) (k : Nat) (v : α) : Tab α :=
  match t with
  | [] => [(k, v)]
  | (j, w) :: r => if k < j then (k, v) :: (j, w) :: r else if k = j then (k, v) :: r else (j, w) :: tput r k v

/-- The table without an entry. -/
def tdel {α : Type} (t : Tab α) (k : Nat) : Tab α := t.filter (fun e => e.1 != k)

/-- The value of an index, d where the table does not list it. -/
def tval {α : Type} (d : α) (t : Tab α) (k : Nat) : α := (tget t k).getD d

/-- The table with a value set: an entry equal to the default d is not listed. -/
def tset {α : Type} [DecidableEq α] (d : α) (t : Tab α) (k : Nat) (v : α) : Tab α :=
  if v = d then tdel t k else tput t k v

/-! ### Arithmetic -/

/-- Division to the nearest integer, ties upward (R57, R80, R113). -/
def roundDiv (a : Int) (b : Nat) : Int := (2 * a + b).fdiv (2 * b)

/-- A value limited symmetrically to w bits: its limit is 2^(w-1) - 1 either way (R57, R113). -/
def limit (w : Nat) (v : Int) : Int :=
  let m : Int := 2 ^ (w - 1) - 1
  if v > m then m else if v < -m then -m else v

/-- A counter of w bits that saturates. -/
def satAdd (w v n : Nat) : Nat := if v + n < 2 ^ w then v + n else 2 ^ w - 1

/-- a is below b over a half range of the instants (R205, R309). -/
def before {w : Nat} (a b : BitVec w) : Bool := (a - b).msb

/-- The signed distance from b to a. -/
def away {w : Nat} (a b : BitVec w) : Int := (a - b).toInt

/-- The bits of a number from 0 to n - 1. -/
def ones (n v : Nat) : List Nat := (List.range n).filter (fun i => v.testBit i)

/-- Bytes of a number, least significant first. -/
def bytesOf (n v : Nat) : List Byte := (List.range n).map (fun i => BitVec.ofNat 8 (v >>> (8 * i)))

/-- The number whose bytes these are, least significant first. -/
def ofBytes : List Byte → Nat
  | [] => 0
  | b :: r => b.toNat + 256 * ofBytes r

/-- The first n entries of a list. -/
def keep {α : Type} (n : Nat) (l : List α) : List α := l.take n

/-- f applied n times. -/
def repeatN {α : Type} (f : α → α) : Nat → α → α
  | 0, x => x
  | n + 1, x => repeatN f n (f x)

/-! ### Storage (R33; every byte space is little-endian) -/

/-- What a byte of storage that nothing has written reads as. (log 2: DESIGN CHOICE) -/
def memDefault : Byte := 0

/-- The byte at an address. -/
def memGet (m : List Host.Cell) (a : Nat) : Byte := tval memDefault m a

/-- Storage with one byte written. -/
def memPut (m : List Host.Cell) (a : Nat) (b : Byte) : List Host.Cell := tset memDefault m a b

/-- Storage with consecutive bytes written from an address. -/
def memPutAll (m : List Host.Cell) (a : Nat) : List Byte → List Host.Cell
  | [] => m
  | b :: r => memPutAll (memPut m a b) (a + 1) r

/-- The n bytes from an address. -/
def memBytes (m : List Host.Cell) (a n : Nat) : List Byte := (List.range n).map (fun i => memGet m (a + i))

/-- The canonical form: addresses strictly rising, no entry equal to what an unlisted address reads as. -/
def Memory.wf (m : List Host.Cell) : Bool :=
  decide (m.Pairwise (fun x y => x.1 < y.1)) && m.all (fun e => e.2 != memDefault)

/-- Base of batch SRAM, of the commons, of the engine windows and of the key store (R33, R258, R379). -/
def sramBase : Nat := 0x01000000
def commonsBase : Nat := 0x00200000
def windowBase : Nat := 0x04000000
def keyBase : Nat := 0x00118000
/-- Where the model keeps the Col pair's code and data RAM, which no fabric address reaches (R260). -/
def colBase : Nat := 0x100000000

/-! ### Where a register sits (R33) -/

/-- A page of a block whose instances lie at a fixed stride. -/
def page (blk common : Blk) (stride count o : Nat) : Loc :=
  if o < stride * count then ⟨blk, o / stride, o % stride⟩ else ⟨common, 0, o⟩

/-- The register block an address lies in, or none where no register block does. -/
def locate (a : Nat) : Option Loc :=
  let o := a % 0x10000
  match a / 0x10000 with
  | 0x00 => if a < 0x1000 then some ⟨.layout, 0, a⟩ else none
  | 0x01 => some ⟨.sys, 0, o⟩
  | 0x02 => some ⟨.tb, 0, o⟩
  | 0x03 => some (if 0x8000 ≤ o ∧ o < 0xC000 then ⟨.ase, (o - 0x8000) / 16, o % 16⟩ else ⟨.ang, 0, o⟩)
  | 0x04 => some (page .hch .hbc 0x400 52 o)
  | 0x05 => some (page .mch .mbc 0x200 68 o)
  | 0x06 => some (if o < 0x8000 then page .rsm .rsc 0x100 34 o else ⟨.rom, 0, o⟩)
  | 0x07 => some (page .recog .recc 0x80 128 o)
  | 0x08 => if 0x40 ≤ o ∧ o < 0x4000 then some ⟨.ctx, o / 0x40, o % 0x40⟩ else none
  | 0x09 => some (if 0x8000 ≤ o ∧ o < 0x8800 then ⟨.probe, (o - 0x8000) / 0x20, o % 0x20⟩ else page .tx .sch 0x20 128 o)
  | 0x0A => some ⟨.sp, o / 0x1000, o % 0x1000⟩
  | 0x0B => some (page .tw .twc 0x1000 8 o)
  | 0x0C => some ⟨.hl, 0, o⟩
  | 0x0D => some (page .eq .eqc 0x100 32 o)
  | 0x0E => some (page .ring .ringc 0x40 128 o)
  | 0x0F => some (if 0x7000 ≤ o ∧ o < 0x8000 then ⟨.ptp, 0, o - 0x7000⟩ else ⟨.mac, o / 0x8000, o % 0x8000⟩)
  | 0x10 => some ⟨.rep, 0, o⟩
  | 0x11 => some (if 0x8000 ≤ o then ⟨.keys, 0, o - 0x8000⟩ else ⟨.sec, 0, o⟩)
  | 0x12 => if o < 0x4800 then some ⟨.eng, o / 0x100, o % 0x100⟩ else none
  | _ => none

/-- The fields of the register at a place. -/
def fieldsOf (l : Loc) : List Fld :=
  match l.blk with
  | .layout => []
  | .sys => sysFields l.off
  | .tb => tbFields l.off
  | .ang => angFields l.off
  | .ase => aseFields l.off
  | .hch => hchFields l.idx l.off
  | .hbc => hbcFields l.off
  | .mch => mchFields l.idx l.off
  | .mbc => mbcFields l.off
  | .rsm => rsmFields l.idx l.off
  | .rsc => rscFields l.off
  | .rom => []
  | .recog => recogFields l.off
  | .recc => reccFields l.off
  | .ctx => ctxFields l.off
  | .tx => txFields l.off
  | .probe => probeFields l.off
  | .sch => schFields l.off
  | .sp => spFields l.idx l.off
  | .tw => twFields l.off
  | .twc => twcFields l.off
  | .hl => hlFields l.off
  | .eq => eqFields l.off
  | .eqc => eqcFields l.off
  | .ring => ringFields l.off
  | .ringc => ringcFields l.off
  | .mac => macFields l.off
  | .ptp => ptpFields l.off
  | .rep => repFields l.off
  | .sec => secFields l.off
  | .keys => []
  | .eng => engFields l.off

/-- The fields of the register at an address. -/
def fieldsAt (a : Nat) : List Fld := ((locate a).map fieldsOf).getD []

/-! ### Register fields -/

/-- The value in force of a register. -/
def Hub.reg (h : Hub) (a : Nat) : Word := tval (resetWord (fieldsAt a)) h.regs a

/-- A register's value in force set, whatever its access codes: what the hub itself does. -/
def Hub.setReg (h : Hub) (a : Nat) (v : Word) : Hub := { h with regs := tset (resetWord (fieldsAt a)) h.regs a v }

/-- A field in force. -/
def Hub.fld (h : Hub) (a lsb width : Nat) : Nat := bits (h.reg a) lsb width

/-- A one-bit field in force. -/
def Hub.bit (h : Hub) (a lsb : Nat) : Bool := (h.reg a).toNat.testBit lsb

/-- A field in force set by the hub. -/
def Hub.setFld (h : Hub) (a lsb width v : Nat) : Hub := h.setReg a (setBits (h.reg a) lsb width v)

/-- A bit in force set or cleared by the hub. -/
def Hub.setBit (h : Hub) (a lsb : Nat) (v : Bool) : Hub := h.setFld a lsb 1 v.toNat

/-- The SH bits of a register. -/
def shMask (fs : List Fld) : Word :=
  fs.foldl (fun w f => if f.acc = .sh then setBits w f.lsb f.width (2 ^ f.width - 1) else w) 0

/-- The RC bits of a register. -/
def rcMask (fs : List Fld) : Word :=
  fs.foldl (fun w f => if f.acc = .rc then setBits w f.lsb f.width (2 ^ f.width - 1) else w) 0

/-- The last value written to the SH fields of a register and not yet in force, if any (R7, R126). -/
def Hub.waiting (h : Hub) (a : Nat) : Option Word := (tget h.held a).orElse (fun _ => tget h.capt a)

/-- What software reads of a stored register: SH fields give the last value written (R7). -/
def Hub.seen (h : Hub) (a : Nat) : Word :=
  match h.waiting a with
  | none => h.reg a
  | some w => let m := shMask (fieldsAt a); (h.reg a &&& ~~~ m) ||| (w &&& m)

/-- A field as software reads it. -/
def Hub.seenFld (h : Hub) (a lsb width : Nat) : Nat := bits (h.seen a) lsb width

/-- A counter field that saturates, raised by n (RC counters and their like). -/
def Hub.bump (h : Hub) (a lsb width n : Nat) : Hub := h.setFld a lsb width (satAdd width (h.fld a lsb width) n)

/-- Where a block's BLK_ERR is, the bits that count as flags for WHICH, and the place of WHICH (width 0: none). -/
structure ErrReg where
  addr  : Nat
  mask  : Nat
  lsb   : Nat
  width : Nat
deriving DecidableEq, Repr

/-- A BLK_ERR flag set; WHICH takes the instance when no flag was set before (R9, R119). -/
def Hub.flag (h : Hub) (e : ErrReg) (b which : Nat) : Hub :=
  let old := h.reg e.addr
  let w := if e.width != 0 && old.toNat % 2 ^ e.mask == 0 then setBits old e.lsb e.width which else old
  h.setReg e.addr (setBits w b 1 1)

/-- What a write does to the fields of one register: the hub, whether a reserved encoding was rejected, and whether a locked
field was left unchanged. -/
structure Wrote where
  hub : Hub
  cfg : Bool
  lck : Bool

/-- A write of one field under its access code (R7, R11). A locked field that would change is ignored whatever the value. (log 24: DEDUCED) -/
def writeField (a : Nat) (locked : Bool) (ok : Fld → Nat → Bool) (v : Word) (r : Wrote) (f : Fld) : Wrote :=
  let new := bits v f.lsb f.width
  let good := f.chk.ok new && ok f new
  match f.acc with
  | .rw => if good then { r with hub := r.hub.setFld a f.lsb f.width new } else { r with cfg := true }
  | .lk =>
    if locked then (if new = r.hub.fld a f.lsb f.width then r else { r with lck := true })
    else if good then { r with hub := r.hub.setFld a f.lsb f.width new } else { r with cfg := true }
  | .sh =>
    if good then
      { r with hub := { r.hub with held := tput r.hub.held a (setBits (r.hub.seen a) f.lsb f.width new) } }
    else { r with cfg := true }
  | .w1c =>
    let old := r.hub.fld a f.lsb f.width
    { r with hub := r.hub.setFld a f.lsb f.width (old &&& (new ^^^ (2 ^ f.width - 1))) }
  | .ro => r
  | .wo => r
  | .rc => r

/-- A write to every field of a register. -/
def Hub.writeFields (h : Hub) (a : Nat) (locked : Bool) (ok : Fld → Nat → Bool) (v : Word) : Wrote :=
  (fieldsAt a).foldl (writeField a locked ok v) ⟨h, false, false⟩

/-- A register write under R7, R11 with the block's BLK_ERR: CFG is its bit 0 and LOCKED its bit 1 in every block. (log 24: DEDUCED) -/
def Hub.putReg (h : Hub) (e : ErrReg) (which a : Nat) (locked : Bool) (ok : Fld → Nat → Bool) (v : Word) : Hub :=
  let r := h.writeFields a locked ok v
  let h1 := if r.cfg then r.hub.flag e 0 which else r.hub
  if r.lck then h1.flag e 1 which else h1

/-- A field check that accepts everything the map accepts. -/
def anyField (_ : Fld) (_ : Nat) : Bool := true

/-! ### SH commits -/

/-- COMMIT: the values held from address lo for n bytes are captured (R126). -/
def Hub.capture (h : Hub) (lo n : Nat) : Hub :=
  let mine := h.held.filter (fun e => lo ≤ e.1 && e.1 < lo + n)
  { h with held := h.held.filter (fun e => !(lo ≤ e.1 && e.1 < lo + n)),
           capt := mine.foldl (fun t e => tput t e.1 e.2) h.capt }

/-- A rejected COMMIT: values held and captured are discarded, and reads return the values in force (R72, R125). (log 24: DEDUCED) -/
def Hub.discard (h : Hub) (lo n : Nat) : Hub :=
  { h with held := h.held.filter (fun e => !(lo ≤ e.1 && e.1 < lo + n)),
           capt := h.capt.filter (fun e => !(lo ≤ e.1 && e.1 < lo + n)) }

/-- The boundary: captured values take effect (R7, R8). -/
def Hub.apply (h : Hub) (lo n : Nat) : Hub :=
  let mine := h.capt.filter (fun e => lo ≤ e.1 && e.1 < lo + n)
  let h1 := { h with capt := h.capt.filter (fun e => !(lo ≤ e.1 && e.1 < lo + n)) }
  mine.foldl (fun g e => let m := shMask (fieldsAt e.1); g.setReg e.1 ((g.reg e.1 &&& ~~~ m) ||| (e.2 &&& m))) h1

/-! ### Holding registers (R13) -/

/-- A read of the low word of a wide counter copies the whole counter. -/
def Hub.copyLow (h : Hub) (a : Nat) (v : BitVec 128) : Hub := { h with hold := tset 0 h.hold a v }

/-- Bits [lsb + 31 : lsb] of the copy made at the last read of the low word at a; zero before any. -/
def Hub.copied (h : Hub) (a lsb : Nat) : Word := ((tval 0 h.hold a) >>> lsb).setWidth 32

/-! ### Free values -/

/-- A value the spec leaves open, and the hub with one more use of the free value made. (log 12: DESIGN CHOICE) -/
def Hub.fresh (h : Hub) : BitVec 64 × Hub := (Config.freeValue h.free, { h with free := h.free + 1 })

/-! ### Running -/

/-- A change of the hub alone. -/
def State.mapHub (s : State) (f : Hub → Hub) : State := { s with hub := f s.hub }

/-- Storage bytes written. -/
def State.store (s : State) (a : Nat) (bs : List Byte) : State := { s with mem := memPutAll s.mem a bs }

/-- Storage bytes read. -/
def State.load (s : State) (a n : Nat) : List Byte := memBytes s.mem a n

end Sys2Proof.Machine
end

