-- ==== Sys2Proof/Machine/Stamp.lean ====
section
/-! DEFINITION. Instants, stamps and positions: the stamp arithmetic of R80, the positions of R97 and R100, the record layouts of
R50 and R60, and the hub's own events (R62, R63, R438). -/

namespace Sys2Proof.Machine

/-! ### Instants -/

/-- TINC in force, in 2^-32 ns (R70, R71). -/
def Hub.tinc (h : Hub) : BitVec 64 := BitVec.ofNat 64 (h.fld 0x2000C 0 8 * 2 ^ 32 + h.fld 0x20008 0 32)

/-- TINC_AON in force, in 2^-32 ns (R71). -/
def Hub.tincAon (h : Hub) : BitVec 64 := BitVec.ofNat 64 (h.fld 0x20014 0 16 * 2 ^ 32 + h.fld 0x20010 0 32)

/-- An accumulator value as an instant (R70, R80). -/
def accInstant (acc : BitVec 64) : Instant := acc.setWidth 72 <<< 8

/-- TS: whole ns of the accumulator (R70). -/
def Hub.ts (h : Hub) : Word := (h.tb.acc >>> 32).setWidth 32

/-- The instant of the present tick. -/
def Hub.instant (h : Hub) : Instant := accInstant h.tb.acc

/-- The stretch of TIME ticks a time falls in: the newest that began at or before it, or the oldest there is. -/
def lineOf (u : Nat) : TimeLine → List TimeLine → TimeLine
  | l, [] => l
  | l, m :: r => if l.at_ ≤ u then l else lineOf u m r

/-- TIME value of the tick at a time, and TINC in force there; without stretches, by the present tick. -/
def Hub.timeAt (h : Hub) (u : Nat) : BitVec 64 × BitVec 64 :=
  let l := match h.tb.lines with
    | [] => { at_ := h.now, acc := h.tb.acc, inc := h.tinc : TimeLine }
    | m :: r => lineOf u m r
  (if l.at_ ≤ u then l.acc + l.inc * BitVec.ofNat 64 ((u - l.at_) / 256) else l.acc - l.inc * BitVec.ofNat 64 ((l.at_ - u + 255) / 256), l.inc)

/-- The instant of PORT cycle c counted from the beat that began at u: A_b + (5q/8) TINC, with b the cycle's own beat and q the cycle within it
(R84). (log 16: DESIGN CHOICE) -/
def Hub.portInstant (h : Hub) (u c : Nat) : Instant :=
  let (a, inc) := h.timeAt (u + 1280 * (c / 8))
  accInstant a + BitVec.ofNat 72 (5 * (c % 8) * inc.toNat * 32)

/-- A number of 1/256 ns as an instant's difference. -/
def inst256 (n : Nat) : Instant := BitVec.ofNat 72 (n * 2 ^ 32)

/-- The stated instant in 1/16 ns: rounded to the nearest, ties upward, less USER_LAT (R80). -/
def stated (t : Instant) (lat : Word) : BitVec 36 :=
  ((t + BitVec.ofNat 72 (2 ^ 35)) >>> 36).setWidth 36 - lat.signExtend 36

/-- TS and TSF of a stated instant (R52). -/
def tsOf (x : BitVec 36) : Word := (x >>> 4).setWidth 32
def tsfOf (x : BitVec 36) : BitVec 4 := x.setWidth 4

/-- The stated instant of a record. -/
def recStated (r : Record) : BitVec 36 := (r.ts.setWidth 36 <<< 4) ||| r.tsf.setWidth 36

/-! ### Positions (R97, R100) -/

/-- Cycle length of a domain in 2^-16 of its unit: CRANK is 1, DIST0 to DIST3 are 2 to 5 (R53, R137). -/
def cycleOf (dom : Nat) : Nat := if dom = 1 then 46080 * 65536 else 65535 * 65536

/-- The difference of two positions in a cycle. -/
def posSub (cyc a b : Nat) : Nat := (a + cyc - b % cyc) % cyc

/-- The newest mark at or before t, with the mark after it if one is decoded. -/
def bracket (t : Instant) (next : Option Mark) : List Mark → Option (Mark × Option Mark)
  | [] => none
  | m :: r => if before t m.t then bracket t (some m) r else some (m, next)

/-- What was subtracted from a DIST domain by the zeroings after t (R101). -/
def zeroedAfter (t : Instant) (z : List (Instant × Nat)) : Nat :=
  (z.filter (fun e => before t e.1)).foldl (fun n e => n + e.2) 0

/-- A run with the edges of it that are among the 8192 newest of its domain, given how many the domain has decoded (R97). -/
def Course.within (c : Course) (total : Nat) : Course := { c with marks := c.marks.takeWhile (fun m => decide (total ≤ m.n + 8192)) }

/-- The runs that still have an edge among the 8192 newest, or never had one. -/
def keepCourses (total : Nat) (l : List Course) : List Course :=
  l.filterMap (fun c => let w := c.within total; if w.marks.isEmpty && !c.marks.isEmpty then none else some w)

/-- Exact position at t of a run in 2^-16 of the unit, and EXT; none where the run states no position (R97). A DIST domain that no pulse has
moved reads 0 from the zero that synchronised it (R101). (log 27: DEDUCED) (log 33: DEDUCED) -/
def Course.at_ (c : Course) (cyc : Nat) (t : Instant) : Option (Nat × Bool) :=
  match c.start with
  | none => none
  | some b =>
    let ended := match c.stop with
      | none => false
      | some e => before e t
    if before t b || ended then none else
    match bracket t none c.marks with
    | none => if c.marks.getLast?.all (fun m => m.n == 0) then some (zeroedAfter t c.zeros % cyc, true) else none
    | some (m, some n) =>
      let d := posSub cyc n.p m.p * (t - m.t).toNat / (n.t - m.t).toNat
      some ((m.p + d + zeroedAfter t c.zeros) % cyc, false)
    | some (m, none) =>
      let off := zeroedAfter t c.zeros
      if t = m.t then some ((m.p + off) % cyc, false) else
      match c.span with
      | none => some ((m.p + (c.dth - 1) + off) % cyc, true)
      | some s =>
        if (t - m.t).toNat ≤ s then some ((m.p + c.dth * (t - m.t).toNat / s + off) % cyc, false)
        else some ((m.p + (c.dth - 1) + off) % cyc, true)

/-- The DIST domain d. -/
def Hub.dist (h : Hub) (d : Nat) : Dist := tval Dist.init h.ang.dist d

/-- The DIST domain d set. -/
def Hub.setDist (h : Hub) (d : Nat) (x : Dist) : Hub := { h with ang := { h.ang with dist := tset Dist.init h.ang.dist d x } }

/-- The crank decoder set. -/
def Hub.setCrank (h : Hub) (c : Crank) : Hub := { h with ang := { h.ang with crank := c } }

/-- With VDDIO_B out of range the inputs of its pins read low, so that none is seen to rise (R421). (log 107: DEDUCED) -/
def Hub.deaf (h : Hub) (rise : Bool) : Bool := rise && h.supply.getLsbD 0

/-- A domain is synchronised (R93, R101). TIME always is. -/
def Hub.synced (h : Hub) (dom : Nat) : Bool :=
  match dom with
  | 0 => true
  | 1 => h.ang.crank.state = .sync720 || (h.ang.crank.state = .sync360 && !h.bit 0x30048 16)
  | d + 2 => (h.dist d).track

/-- The run under way of a domain, and the runs before it, newest first, with the 8192 newest edges among them (R97). -/
def Hub.courses (h : Hub) (dom : Nat) : Course × List Course :=
  match dom with
  | 1 => let c := h.ang.crank; (c.run.within c.edges, keepCourses c.edges c.olds)
  | d => let x := h.dist (d - 2); (x.run.within x.edges, keepCourses x.edges x.olds)

/-- The exact position of a domain at an instant, and EXT (R97). (log 27: DEDUCED) -/
def Hub.exactAt (h : Hub) (dom : Nat) (t : Instant) : Option (Nat × Bool) :=
  let (c, l) := h.courses dom
  (c.at_ (cycleOf dom) t).orElse (fun _ => l.findSome? (fun o => o.at_ (cycleOf dom) t))

/-- The position rounded to whole units, ties upward. -/
def roundPos (cyc x : Nat) : Half := BitVec.ofNat 16 (((x + 32768) / 65536) % (cyc / 65536))

/-- POS and EXT of a record whose stream is bound to a domain as CTX_FMT.DOMAIN names it (R53). -/
def Hub.posAt (h : Hub) (dom : Nat) (t : Instant) : Half × Bool :=
  if dom = 0 then (0xFFFF, false) else
  match h.exactAt dom t with
  | none => (0xFFFF, true)
  | some (x, e) => (roundPos (cycleOf dom) x, e)

/-- The exact real-time position of a domain at this tick in 2^-16 of the unit: TS for TIME (R97). -/
def Hub.exactNow (h : Hub) (dom : Nat) : Option Nat :=
  if dom = 0 then some (h.tb.acc.toNat / 2 ^ 16) else
  if h.synced dom then ((h.courses dom).1.at_ (cycleOf dom) h.instant).map (fun x => x.1) else none

/-! ### Records (R50, R60) -/

/-- A record as a 128-bit word (R50). -/
def packRecord (r : Record) : BitVec 128 := r.ts ++ r.pos ++ r.sid ++ r.tsf ++ r.flg ++ r.pay

/-- The record in a 128-bit word (R50). -/
def unpackRecord (w : BitVec 128) : Record :=
  { ts := w.extractLsb' 96 32, pos := w.extractLsb' 80 16, sid := w.extractLsb' 72 8, tsf := w.extractLsb' 68 4,
    flg := w.extractLsb' 64 4, pay := w.extractLsb' 0 64 }

/-- The bytes of a record, byte 0 first (R51). -/
def recordBytes (r : Record) : List Byte := bytesOf 16 (packRecord r).toNat

/-- The payload of an event record (R60). -/
def eventPay (code pri src : Nat) (value : BitVec 40) : BitVec 64 :=
  BitVec.ofNat 8 code ++ BitVec.ofNat 4 pri ++ BitVec.ofNat 12 src ++ value

/-- Priority of an event record (R60). -/
def recPri (r : Record) : Nat := (r.pay.toNat / 2 ^ 52) % 16

/-- Code of an event record (R60). -/
def recCode (r : Record) : Nat := r.pay.toNat / 2 ^ 56

/-- A hub event at an instant (R60, R62): SID 0, MARK alone, priority 0. -/
def hubEvent (code src : Nat) (value : BitVec 40) (t : Instant) (pos : Half) : Record :=
  let x := stated t 0
  { ts := tsOf x, pos := pos, sid := 0, tsf := tsfOf x, flg := 8, pay := eventPay code 0 src value }

/-- A SID 0 record formed at an instant. None is formed in BASIN (R313, R316). -/
def Hub.sysAt (h : Hub) (code src : Nat) (value : BitVec 40) (t : Instant) (pos : Half) : Hub :=
  if h.pwr.state = 4 then h else { h with sysq := h.sysq ++ [hubEvent code src value t pos] }

/-- A SID 0 record stamped with the present tick (R87). -/
def Hub.sysRecord (h : Hub) (code src : Nat) (value : BitVec 40) : Hub := h.sysAt code src value h.instant 0xFFFF

/-! ### Queue insertion and HEALTH (R219, R221, R438) -/

/-- The queue q. -/
def Hub.eq_ (h : Hub) (q : Nat) : EventQueue := tval EventQueue.init h.eqs q

/-- The queue q set. -/
def Hub.setEq (h : Hub) (q : Nat) (x : EventQueue) : Hub := { h with eqs := tset EventQueue.init h.eqs q x }

/-- An insertion: a full queue first loses its oldest item (R221). -/
def Hub.insert (h : Hub) (q : Nat) (r : Record) : Hub :=
  let e := h.eq_ q
  let item : EqItem := { rcd := r, at_ := h.now, ripe := false }
  if e.items.length ≥ 32 then
    (h.setEq q { e with items := e.items.drop 1 ++ [item] }).bump (0xD0024 + 0x100 * q) 0 16 1
  else h.setEq q { e with items := e.items ++ [item] }

/-- A HEALTH event posted with the route and priority in force (R22, R23, R63). -/
def Hub.postHealth (h : Hub) (r : Record) : Hub :=
  let pri := h.fld 0x10040 16 4
  h.insert (h.fld 0x10040 8 5) { r with pay := eventPay 0x20 pri ((r.pay.toNat / 2 ^ 40) % 4096) (r.pay.setWidth 40) }

/-- A HEALTH event arises (R438): posted now, or held in HOLLOW and BASIN, where the 17th and later are lost (R313). -/
def Hub.health (h : Hub) (ty inst code value : Nat) : Hub :=
  let v : BitVec 40 := BitVec.ofNat 16 value ++ BitVec.ofNat 8 code ++ BitVec.ofNat 16 inst
  let r := hubEvent 0x20 ty v h.instant 0xFFFF
  if h.pwr.state < 3 then h.postHealth r
  else if h.pwr.health.length < 16 then { h with pwr := { h.pwr with health := h.pwr.health ++ [r] } }
  else h.bump 0x1011C 24 8 1

/-- A word failed parity at its consumer: the block's PARITY_ERR counter and the HEALTH event that reports it (R29, R438). -/
def Hub.parityError (h : Hub) (reg ty inst : Nat) : Hub :=
  let g := h.bump reg 0 16 1
  g.health ty inst 0x10 (g.fld reg 0 16)

end Sys2Proof.Machine
end

