-- ==== Sys2Proof/Machine/Rings.lean ====
section
/-! DEFINITION. Event queues and batch rings (R219 to R236): pops, ring writes under the full policy, captures, and the storing
of the SID 0 records a command has formed, which ends every command. -/

namespace Sys2Proof.Machine

/-! ### Event queues -/

/-- EQ_ERR (R225). -/
def eqErr : ErrReg := ⟨0xDF07C, 3, 16, 5⟩

/-- The place among the items of the one a pop would return: the highest priority, then the first to arrive (R220). -/
def headPlace (items : List EqItem) (i : Nat) (best : Option (Nat × Nat)) : Option Nat :=
  match items with
  | [] => best.map (fun b => b.1)
  | x :: r =>
    let better := match best with
      | none => true
      | some (_, p) => recPri x.rcd > p
    headPlace r (i + 1) (if x.ripe && better then some (i, recPri x.rcd) else best)

/-- The item a pop would return (R220). -/
def EventQueue.head (e : EventQueue) : Option EqItem := (headPlace e.items 0 none).bind (fun i => e.items[i]?)

/-- The queue without its item at a place. -/
def EventQueue.without (e : EventQueue) (i : Nat) : EventQueue := { e with items := e.items.take i ++ e.items.drop (i + 1) }

/-- The stage of the next pop fails parity: its item is discarded and counted (R223). -/
def Hub.popBadStage (h : Hub) (q : Nat) : Hub :=
  let e := h.eq_ q
  match headPlace e.items 0 none with
  | none => h
  | some i => (h.setEq q (e.without i)).parityError 0xDF040 0x0040 q

/-- A pop discards stage after stage whose parity fails, of at most n, until it reads a good one (R223). -/
def Hub.dropBadly : Nat → Nat → Hub → Hub
  | 0, _, h => h
  | n + 1, q, h =>
    match (h.eq_ q).head with
    | none => h
    | some x => if x.bad then (h.popBadStage q).dropBadly n q else h

/-- The stages that fail at a pop of queue q are discarded (R223). -/
def Hub.dropBad (h : Hub) (q : Nat) : Hub := h.dropBadly (((h.eq_ q).items.filter (fun x => x.bad)).length) q

/-- The stage that holds the item at a place of queue q will fail parity when a pop reads it (R223). -/
def Hub.spoil (h : Hub) (q place : Nat) : Hub :=
  h.setEq q { h.eq_ q with items := (h.eq_ q).items.modify place (fun x => { x with bad := true }) }

/-- A pop: the record returned and the hub after it; UNDERRUN and the previous value when no item is eligible (R220, R222, R223). -/
def Hub.pop (h0 : Hub) (q : Nat) : Record × Hub :=
  let h := h0.dropBad q
  let e := h.eq_ q
  match headPlace e.items 0 none with
  | none => (e.last.getD (unpackRecord 0), h.setBit (0xD0020 + 0x100 * q) 10 true)
  | some i =>
    let r := ((e.items[i]?).map (fun x => x.rcd)).getD (unpackRecord 0)
    (r, h.setEq q { e.without i with last := some r })

/-- Every insertion becomes eligible in the order of arrival (R220): the oldest item not yet eligible does, 32 FAB cycles after its insertion. (log 116: DEDUCED) -/
def ripen (now : Nat) : List EqItem → List EqItem
  | [] => []
  | x :: r => if x.ripe then x :: ripen now r else { x with ripe := decide (x.at_ + 2560 ≤ now) } :: r

/-- EQ_STATUS (R225). -/
def Hub.eqStatus (h : Hub) (q : Nat) : Word :=
  let e := h.eq_ q
  let w := setBits (h.reg (0xD0020 + 0x100 * q)) 0 6 e.items.length
  let w1 := setBits w 8 1 (if e.items.isEmpty then 1 else 0)
  match e.head with
  | none => setBits w1 9 1 0
  | some x => setBits (setBits w1 9 1 1) 12 4 (recPri x.rcd)

/-- A queue drives IRQ_N low (R226). -/
def Hub.eqIrq (h : Hub) (q : Nat) : Bool :=
  let cfg := 0xD0028 + 0x100 * q
  match (h.eq_ q).head with
  | none => false
  | some x => h.bit cfg 0 && decide (h.fld cfg 4 4 ≤ recPri x.rcd)

/-! ### Rings -/

/-- RING_ERR (R236). -/
def ringErr : ErrReg := ⟨0xEF07C, 5, 16, 7⟩

/-- Address of a ring's descriptor word. -/
def ringReg (n off : Nat) : Nat := 0xE0000 + 0x40 * n + off

/-- The ring n, and the ring n set. -/
def Hub.ring (h : Hub) (n : Nat) : Ring := tval Ring.init h.rings n
def Hub.setRing (h : Hub) (n : Nat) (r : Ring) : Hub := { h with rings := tset Ring.init h.rings n r }

/-- Unread records (R229). -/
def Ring.fill (r : Ring) : Nat := (r.wr - r.rd).toNat

/-- When the oldest unread record was written (R231, R371). (log 117: DEDUCED) -/
def Ring.oldest (r : Ring) : Option Nat :=
  if r.fill = 0 then none else (r.dates.find? (fun d => d.1 == r.rd)).map (fun d => d.2)

/-- Ring n is enabled. -/
def Hub.ringOn (h : Hub) (n : Nat) : Bool := h.bit (ringReg n 0) 0

/-- First unit and number of units of ring n. -/
def Hub.ringUnits (h : Hub) (n : Nat) : Nat × Nat := (h.fld (ringReg n 4) 0 12, h.fld (ringReg n 4) 16 12 + 1)

/-- Capacity in records: 256 for each unit of 4 KiB. -/
def Hub.ringCap (h : Hub) (n : Nat) : Nat := 256 * (h.ringUnits n).2

/-- Address of record index i of ring n. -/
def Hub.recordAddr (h : Hub) (n : Nat) (i : Word) : Nat :=
  sramBase + (h.ringUnits n).1 * 0x1000 + (i.toNat % h.ringCap n) * 16

/-- Banks a span of units touches: 256 units to a bank of 1 MiB. -/
def banksOf (base units : Nat) : List Nat :=
  (List.range 16).filter (fun b => decide (base < (b + 1) * 256 ∧ b * 256 < base + units))

/-- Every bank of ring n is retained in HOLLOW and BASIN (R317: a bank out of service is not). -/
def Hub.ringRetained (h : Hub) (n : Nat) : Bool :=
  let (b, u) := h.ringUnits n
  (banksOf b u).all (fun k => h.bit 0x10108 (16 + k) && !h.bankOut.getLsbD k)

/-- Bit n of RING_IRQ set under R232. -/
def Hub.ringIrq (h : Hub) (n : Nat) : Hub :=
  if h.bit (ringReg n 0x0C) 24 then h.setBit (0xEF000 + 4 * (n / 32)) (n % 32) true else h

/-- The freeze of a capture (R233). -/
def Hub.freeze (h : Hub) (n : Nat) : Hub :=
  let r := h.ring n
  let start := r.trig - BitVec.ofNat 32 (min r.pre r.trigN)
  let given := if away start r.rd > 0 then (start - r.rd).toNat else 0
  ((h.setRing n { r with state := 3, capEnd := r.wr, capStart := start, rd := start }).bump (ringReg n 0x28) 16 16 given).ringIrq n

/-- The indices after a record is written at WR_IDX, with the interrupt of R232, given the fill ahead of the record, and the freeze of R233. -/
def Hub.wrote (h : Hub) (n before_ : Nat) : Hub :=
  let r := h.ring n
  let wm := h.fld (ringReg n 0x0C) 0 21
  let h1 := h.setRing n { r with wr := r.wr + 1, count := r.count + 1, dates := (r.dates ++ [(r.wr, h.now)]).drop (r.dates.length + 1 - h.ringCap n) }
  let h2 := if wm ≠ 0 ∧ before_ + 1 = wm ∧ r.fill + 1 = wm then h1.ringIrq n else h1
  if r.state = 2 ∧ r.wr = r.trig + BitVec.ofNat 32 r.post then h2.freeze n else h2

/-- Stage 8 for an enabled ring (R229, R233): the hub, and the address to write, if the record is written. -/
def Hub.stage8 (h : Hub) (n : Nat) : Hub × Option Nat :=
  let r := h.ring n
  if r.state = 3 then (h.bump (ringReg n 0x2C) 0 16 1, none)
  else if r.fill < h.ringCap n then (h.wrote n r.fill, some (h.recordAddr n r.wr))
  else if r.state = 2 || h.bit (ringReg n 8) 0 then
    let h1 := (h.setRing n { r with rd := r.rd + 1 }).bump (ringReg n 0x28) 16 16 1
    (h1.wrote n r.fill, some (h.recordAddr n r.wr))
  else (h.bump (ringReg n 0x28) 0 16 1, none)

/-- A record written to an enabled ring under its full policy. -/
def State.ringWrite (s : State) (n : Nat) (r : Record) : State :=
  let (h, a) := s.hub.stage8 n
  match a with
  | none => { s with hub := h }
  | some x => { s with hub := h, mem := memPutAll s.mem x (recordBytes r) }

/-- Ring n goes off: its capture ends without a freeze, its indices and contents stay (R234). -/
def Hub.ringOff (h : Hub) (n : Nat) : Hub :=
  (h.setBit (ringReg n 0) 0 false).setRing n { h.ring n with state := 0 }

/-- The checks of R228: whether CFG, OVERLAP and BANK fail. -/
def Hub.ringChecks (h : Hub) (n : Nat) : Bool × Bool × Bool :=
  let (b, u) := h.ringUnits n
  let wm := h.reg (ringReg n 0x0C)
  let noTrigger := h.fld (ringReg n 8) 1 2 ≠ 0 ∧ bits wm 0 21 = 0 ∧ bits wm 25 7 = 0
  let laps := (List.range 128).any (fun k =>
    k != n && h.ringOn k && decide (b < (h.ringUnits k).1 + (h.ringUnits k).2 ∧ (h.ringUnits k).1 < b + u))
  (decide (b + u > 4096) || decide noTrigger, laps, (banksOf b u).any (fun k => h.bankOut.getLsbD k))

/-- A write of EN = 1 to a ring that is off (R228). A ring that is on stays as it is. (log 43: DEDUCED) -/
def Hub.ringEnable (h : Hub) (n : Nat) : Hub :=
  if h.ringOn n then h else
  let (c, o, b) := h.ringChecks n
  if c || o || b then
    let e := ringErr
    let quiet := (h.reg e.addr).toNat % 32 == 0
    let w := h.reg e.addr
    let w1 := if c then setBits w 0 1 1 else w
    let w2 := if o then setBits w1 3 1 1 else w1
    let w3 := if b then setBits w2 4 1 1 else w2
    h.setReg e.addr (if quiet then setBits w3 16 7 n else w3)
  else
    { (h.setBit (ringReg n 0) 0 true).setRing n { h.ring n with state := 1, wr := 0, rd := 0, count := 0, dates := [] } with
      dgSeq := tdel h.dgSeq n, dgDue := h.dgDue.erase n }

/-- A consumer's write of RD_IDX (R230). -/
def Hub.rdWrite (h : Hub) (n : Nat) (v : Word) : Hub :=
  let r := h.ring n
  if h.fld (ringReg n 8) 1 2 = 0 ∧ (v - r.rd).toNat ≤ r.fill then
    h.setRing n { r with rd := v }
  else h.flag ringErr 2 n

/-- A trigger's capture of ring n, or none where R213 refuses it. -/
def Hub.capture_ (h : Hub) (n pre post : Nat) : Option Hub :=
  let r := h.ring n
  if h.ringOn n ∧ r.state = 1 ∧ pre + post + 1 ≤ h.ringCap n then
    some (h.setRing n { r with state := 2, trig := r.wr, trigN := r.count, pre := pre, post := post })
  else none

/-! ### The end of a command -/

/-- SID 0 records are stored in SYS_RING while SYS_EN and the ring allow it (R22, R23, R313). -/
def Hub.sysStored (h : Hub) : Bool :=
  let n := h.fld 0x10040 0 7
  h.bit 0x10040 7 && h.ringOn n && (h.pwr.state != 3 || h.ringRetained n)

/-- One SID 0 record stored; SYS_DROP counts it where none is, also where the ring's own policy discards it (R22, R229, R233). -/
def State.sysStore (s : State) (r : Record) : State :=
  let n := s.hub.fld 0x10040 0 7
  let dropped (t : State) : State := { t with hub := t.hub.bump 0x10044 0 16 1 }
  if !s.hub.sysStored then dropped s
  else if (s.hub.stage8 n).2.isSome then s.ringWrite n r
  else dropped (s.ringWrite n r)

/-- The SID 0 records a command has formed are stored, oldest first. -/
def State.settle (s : State) : State :=
  s.hub.sysq.foldl State.sysStore { s with hub := { s.hub with sysq := [] } }

/-- A command that changes the hub alone, and then stores the SID 0 records it formed. -/
def State.run (s : State) (f : Hub → Hub) : Host.Outcome State Fault Refusal := .next (s.mapHub f).settle

/-- The address selects an instance that does not exist: reads zero, and nothing else changes. -/
def State.same (s : State) : Host.Outcome State Fault Refusal := .next s

/-! ### The commands of queues and rings -/

/-- EQ_INSERT: an internal post to queue q (R219, R221, R226). -/
def execEqInsert (q : Nat) (rec : Record) (s : State) : Host.Outcome State Fault Refusal :=
  s.run (fun h => if q < 32 then h.insert q rec else h)

/-- An EQ_PUSH write of some bits: rejected when narrow, unmarked or below code 0x80 (R225). -/
def Hub.eqPush (h : Hub) (q n : Nat) (item : BitVec 128) : Hub :=
  let r := unpackRecord item
  if n ≠ 128 || r.flg.getLsbD 3 = false || recCode r < 0x80 then h.flag eqErr 2 q else h.insert q r

/-- EQ_PUSH (R219, R225). -/
def execEqPush (q bits : Nat) (item : BitVec 128) (s : State) : Host.Outcome State Fault Refusal :=
  s.run (fun h => if q < 32 then h.eqPush q bits item else h)

/-- A read of EQ_HEAD0: a pop, whose 128 bits go to the holding register of HEAD1 to HEAD3 (R220 to R223, R225). (log 92: DESIGN CHOICE) -/
def Hub.headPop (h : Hub) (q : Nat) (bad : Bool) : Hub :=
  let h1 := if bad then h.popBadStage q else h
  let (r, h2) := h1.pop q
  { h2.copyLow (0xD0000 + 0x100 * q) (packRecord r) with readData := (packRecord r).setWidth 32 |>.setWidth 128 }

/-- EQ_HEAD_POP. -/
def execEqHeadPop (q : Nat) (badParity : Bool) (s : State) : Host.Outcome State Fault Refusal :=
  s.run (fun h => if q < 32 then h.headPop q badParity else h)

/-- FLUSH: every stage is marked empty; the value of the last pop and the counters stay (R224). -/
def Hub.flushEq (h : Hub) (q : Nat) : Hub := h.setEq q { h.eq_ q with items := [] }

def execFlush (q : Nat) (s : State) : Host.Outcome State Fault Refusal :=
  s.run (fun h => if q < 32 then h.flushEq q else h)

/-- EQ_ITEM_ELIGIBLE: the oldest item not yet eligible becomes it, once its time has come (R220, R226). (log 116: DEDUCED) -/
def Hub.eqRipen (h : Hub) (q : Nat) : Hub := h.setEq q { h.eq_ q with items := ripen h.now (h.eq_ q).items }

def execEqItemEligible (q : Nat) (s : State) : Host.Outcome State Fault Refusal :=
  s.run (fun h => if q < 32 then h.eqRipen q else h)

/-- RING_ENABLE (R228). -/
def execRingEnable (n : Nat) (s : State) : Host.Outcome State Fault Refusal :=
  s.run (fun h => if n < 128 then h.ringEnable n else h)

/-- RING_DISABLE (R234). -/
def execRingDisable (n : Nat) (s : State) : Host.Outcome State Fault Refusal :=
  s.run (fun h => if n < 128 ∧ h.ringOn n then h.ringOff n else h)

/-- RELEASE returns a frozen ring to RUN with both indices unchanged (R233). -/
def Hub.ringRelease (h : Hub) (n : Nat) : Hub :=
  let r := h.ring n
  if r.state = 3 then h.setRing n { r with state := 1 } else h

def execRelease (n : Nat) (s : State) : Host.Outcome State Fault Refusal :=
  s.run (fun h => if n < 128 then h.ringRelease n else h)

/-- RD_IDX_WRITE (R230). -/
def execRdIdxWrite (n : Nat) (val : Word) (s : State) : Host.Outcome State Fault Refusal :=
  s.run (fun h => if n < 128 then h.rdWrite n val else h)

/-- What a fabric read of a queue's page gives, apart from a pop (R225). -/
def Hub.eqRead (h : Hub) (q off : Nat) : Word :=
  match off with
  | 0x04 => h.copied (0xD0000 + 0x100 * q) 32
  | 0x08 => h.copied (0xD0000 + 0x100 * q) 64
  | 0x0C => h.copied (0xD0000 + 0x100 * q) 96
  | 0x20 => h.eqStatus q
  | _ => h.seen (0xD0000 + 0x100 * q + off)

/-- What a fabric read of a ring descriptor gives (R236). -/
def Hub.ringRead (h : Hub) (n off : Nat) : Word :=
  let r := h.ring n
  match off with
  | 0x10 => r.wr
  | 0x14 => r.rd
  | 0x18 => r.state.setWidth 32
  | 0x1C => BitVec.ofNat 32 r.fill
  | 0x20 => r.capStart
  | 0x24 => r.capEnd
  | _ => h.seen (ringReg n off)

/-- A fabric write to a queue's page (R225). -/
def Hub.eqWrite (h : Hub) (q off : Nat) (v : Word) : Hub :=
  if 0x10 ≤ off ∧ off < 0x20 then h.eqPush q 32 0
  else if off = 0x2C then (if v.getLsbD 0 then h.flushEq q else h)
  else h.putReg eqErr q (0xD0000 + 0x100 * q + off) false anyField v

/-- A fabric write to a ring descriptor (R236). -/
def Hub.ringSet (h : Hub) (n off : Nat) (v : Word) : Hub :=
  match off with
  | 0x00 =>
    let h1 := if v.getLsbD 1 then h.ringRelease n else h
    if v.getLsbD 0 then h1.ringEnable n else if h1.ringOn n then h1.ringOff n else h1
  | 0x14 => h.rdWrite n v
  | _ => h.putReg ringErr n (ringReg n off) (h.ringOn n) anyField v

end Sys2Proof.Machine
end

