-- ==== Sys2Proof/Machine/TimeBase.lean ====
section
/-! DEFINITION. The time base (R70 to R79): wraps and calendar time, the servo's commits, the coarse set, and its registers. What
acts "at the next TIME tick" waits in the state and acts in the idle step that is that tick (log 1). -/

namespace Sys2Proof.Machine

/-- TB_ERR (R71). -/
def tbErr : ErrReg := ⟨0x2007C, 6, 0, 0⟩

/-- The time base set. -/
def Hub.setTb (h : Hub) (t : TimeBase) : Hub := { h with tb := t }

/-- EPOCH takes NEXT_EPOCH, EPOCH_VALID sets, ARMED clears, and EPOCH_SWAP is written (R75, R77). A servo that waits for the swap goes back
to TRACK (R367). -/
def Hub.epochSwap (h : Hub) : Hub :=
  let s : BitVec 48 := BitVec.ofNat 48 (h.fld 0x20044 0 16 * 2 ^ 32 + h.fld 0x20040 0 32)
  let g := h.setTb { h.tb with epochS := s, epochNs := BitVec.ofNat 30 (h.fld 0x20048 0 30), epochValid := true, armed := false,
                               staleWraps := 0 }
  let g := if g.ptp.state = 3 then { g with ptp := { g.ptp with state := 2 } } else g
  g.sysRecord 0x03 0 (s.setWidth 40)

/-- A wrap finds nothing armed (R76); the record's value is the number of the wrap since reset. (log 120: DEDUCED) -/
def Hub.epochStale (h : Hub) : Hub :=
  let g := (h.setTb { h.tb with epochValid := false, staleWraps := h.tb.staleWraps + 1 }).flag tbErr 4 0
  (g.sysRecord 0x04 0 g.tb.wraps).health 0x0002 0 0x81 (g.tb.wraps.toNat % 65536)

/-- WRAP: counted and recorded first, then EPOCH is swapped or found stale (R74 to R76; in BASIN without records, R316). (log 18: DEDUCED) -/
def Hub.wrap (h : Hub) : Hub :=
  let g := h.setTb { h.tb with wraps := h.tb.wraps + 1, wrapDue := false }
  let g1 := g.sysRecord 0x01 0 g.tb.wraps
  if g1.tb.armed then g1.epochSwap else g1.epochStale

def execWrap (s : State) : Host.Outcome State Fault Refusal := s.run Hub.wrap

/-- HALFWRAP (R74); Mbonik then has EPOCH to arm (R78). -/
def Hub.halfwrap (h : Hub) : Hub :=
  let g := h.setTb { h.tb with halfwraps := h.tb.halfwraps + 1, halfDue := false, rearmDue := h.mbonik }
  g.sysRecord 0x02 0 g.tb.halfwraps

def execHalfwrap (s : State) : Host.Outcome State Fault Refusal := s.run Hub.halfwrap

/-- A PTP time in whole ns split into seconds and ns. -/
def splitNs (n : Nat) : BitVec 48 × BitVec 30 := (BitVec.ofNat 48 (n / 1000000000), BitVec.ofNat 30 (n % 1000000000))

/-- EPOCH in whole ns. -/
def TimeBase.epochTotal (t : TimeBase) : Nat := t.epochS.toNat * 1000000000 + t.epochNs.toNat

/-- NEXT_EPOCH written by Mbonik. -/
def Hub.setNext (h : Hub) (s : BitVec 48) (ns : BitVec 30) : Hub :=
  ((h.setReg 0x20040 (s.setWidth 32)).setReg 0x20044 ((s >>> 32).setWidth 32)).setReg 0x20048 (ns.setWidth 32)

/-- EPOCH_REARM: Mbonik arms EPOCH + 2^32 ns if EPOCH is valid and nothing is armed (R78). (log 20: DEDUCED) -/
def Hub.epochRearm (h : Hub) : Hub :=
  let g := h.setTb { h.tb with rearmDue := false }
  if g.mbonik && g.tb.epochValid && !g.tb.armed then
    let (s, ns) := splitNs (g.tb.epochTotal + 2 ^ 32)
    let g1 := g.setNext s ns
    g1.setTb { g1.tb with armed := true }
  else g

def execEpochRearm (s : State) : Host.Outcome State Fault Refusal := s.run Hub.epochRearm

/-- TB_ARM: ARM while ARMED has no effect (R75). -/
def Hub.tbArm (h : Hub) : Hub := h.setTb { h.tb with armed := true }

def execTbArm (s : State) : Host.Outcome State Fault Refusal := s.run Hub.tbArm

/-- TB_DISARM. One in the tick of a wrap comes too late: ARMED stays for the swap (R75). (log 10: DEDUCED) -/
def Hub.tbDisarm (h : Hub) : Hub := if h.tb.wrapDue then h else h.setTb { h.tb with armed := false }

def execTbDisarm (s : State) : Host.Outcome State Fault Refusal := s.run Hub.tbDisarm

/-- TB_REPAIR: accepted only with EPOCH_VALID and ARMED at 0; it acts at the next TIME tick (R77). (log 17: DEDUCED) -/
def Hub.tbRepair (h : Hub) : Hub :=
  if h.tb.epochValid || h.tb.armed then h.flag tbErr 3 0 else h.setTb { h.tb with repairPend := true }

def execTbRepair (s : State) : Host.Outcome State Fault Refusal := s.run Hub.tbRepair

/-- The TINC pair software has written lies from 3.875 to 4.125 ns (R72). -/
def Hub.tincOk (h : Hub) : Bool :=
  let v := h.seenFld 0x2000C 0 8 * 2 ^ 32 + h.seenFld 0x20008 0 32
  decide (0x3E0000000 ≤ v ∧ v ≤ 0x420000000)

/-- TB_COMMIT: both pairs wait for the next TIME tick, or are discarded (R72). (log 98: DEDUCED) -/
def Hub.tbCommit (h : Hub) : Hub :=
  if h.tincOk then (h.capture 0x20008 16).setTb { h.tb with commitPend := true }
  else ((h.discard 0x20008 16).setTb { h.tb with commitPend := false }).flag tbErr 0 0

def execTbCommit (s : State) : Host.Outcome State Fault Refusal := s.run Hub.tbCommit

/-- TINC_APPLY: a commit acts at the next TIME tick and applies to that tick, a wrap's too. In holdover and in BASIN no TIME tick occurs, and it
stays pending (R72). -/
def Hub.tincApply (h : Hub) : Hub :=
  if h.tb.lock && h.tb.commitPend then (h.apply 0x20008 16).setTb { h.tb with commitPend := false } else h

def execTincApply (s : State) : Host.Outcome State Fault Refusal := s.run Hub.tincApply

/-- TS_SET: the first since reset is accepted and acts at the next TIME tick; every later one is refused (R73). (log 17: DEDUCED) -/
def Hub.tsSet (h : Hub) (ts : Word) : Hub :=
  if h.tb.setDone || h.tb.setPend.isSome then h.flag tbErr 2 0 else h.setTb { h.tb with setPend := some ts }

def execTsSet (ts : Word) (s : State) : Host.Outcome State Fault Refusal := s.run (fun h => h.tsSet ts)

/-- TB_STATUS (R71). -/
def Hub.tbStatus (h : Hub) : Word :=
  let t := h.tb
  let b (x : Bool) (i : Nat) : Nat := x.toNat * 2 ^ i
  BitVec.ofNat 32 (b t.epochValid 0 + b t.armed 1 + b t.commitPend 2 + b t.setDone 3 + b t.lock 4 + b t.holdover 5
    + t.calFail.toNat * 2 ^ 8 + t.calDone.toNat * 2 ^ 12)

/-- What a fabric read of the time base gives, and the hub after it (R13, R71). -/
def Hub.tbRead (h : Hub) (off : Nat) : Word × Hub :=
  match off with
  | 0x004 => (h.tbStatus, h)
  | 0x018 => (h.tb.acc.setWidth 32, h.copyLow 0x20018 (h.tb.acc.setWidth 128))
  | 0x01C => (h.copied 0x20018 32, h)
  | 0x020 => (h.ts, h)
  | 0x028 => (h.tb.wraps.setWidth 32, h.copyLow 0x20028 (h.tb.wraps.setWidth 128))
  | 0x02C => (h.copied 0x20028 32, h)
  | 0x030 => (h.tb.epochS.setWidth 32, h.copyLow 0x20030 ((h.tb.epochNs ++ h.tb.epochS).setWidth 128))
  | 0x034 => (h.copied 0x20030 32 &&& 0xFFFF, h)
  | 0x038 => (h.copied 0x20030 48 &&& 0x3FFFFFFF, h)
  | _ =>
    if 0x050 ≤ off ∧ off < 0x060 ∧ off % 4 = 0 then
      (setBits (h.seen (0x20000 + off)) 16 12 (tval 0 h.tb.delay ((off - 0x50) / 4)).toNat, h)
    else (h.seen (0x20000 + off), h)

/-- A fabric write to the time base (R71 to R77): REPAIR is judged first, and if it is accepted ARM and DISARM of the same
write are ignored; DISARM wins over ARM. -/
def Hub.tbWrite (h : Hub) (off : Nat) (v : Word) : Hub :=
  match off with
  | 0x000 =>
    let taken := v.getLsbD 2 && !h.tb.epochValid && !h.tb.armed
    let h1 := if v.getLsbD 2 then h.tbRepair else h
    let h2 := if taken then h1 else if v.getLsbD 1 then h1.tbDisarm else if v.getLsbD 0 then h1.tbArm else h1
    if v.getLsbD 3 then h2.tbCommit else h2
  | 0x024 => h.tsSet v
  | _ => h.putReg tbErr 0 (0x20000 + off) h.tb.armed anyField v

end Sys2Proof.Machine
end

