-- ==== Sys2Proof/Machine/Streams.lean ====
section
/-! DEFINITION. Streams and records (R50 to R69): the stamp unit, payload formats, stream states, START and STOP, and storage of
records at stages 7 and 8. -/

namespace Sys2Proof.Machine

/-! ### Access to contexts -/

/-- Address of a context's register, and its BLK_ERR (R64). -/
def ctxReg (sid off : Nat) : Nat := 0x80000 + sid * 64 + off
def ctxErr (sid : Nat) : ErrReg := ⟨ctxReg sid 0x3C, 4, 0, 0⟩

/-- A SID that names a context. -/
def sidOk (sid : Nat) : Bool := decide (1 ≤ sid ∧ sid ≤ 255)

/-- The context of a SID, and the context set. -/
def Hub.strm (h : Hub) (sid : Nat) : Stream := tval Stream.init h.streams sid
def Hub.setStrm (h : Hub) (sid : Nat) (x : Stream) : Hub := { h with streams := tset Stream.init h.streams sid x }

/-- CTX_STATUS.STATE as a number (R64). -/
def StreamState.code : StreamState → Nat
  | .idle => 0
  | .armed => 1
  | .running => 2
  | .waiting => 3
  | .draining => 4
  | .fault => 5

/-- Fields of a context (R64). -/
def Hub.kind (h : Hub) (sid : Nat) : Nat := h.fld (ctxReg sid 0x08) 0 4
def Hub.srcIndex (h : Hub) (sid : Nat) : Nat := h.fld (ctxReg sid 0x08) 8 8
def Hub.slice (h : Hub) (sid : Nat) : Nat := h.fld (ctxReg sid 0x0C) 0 8
def Hub.bank (h : Hub) (sid : Nat) : Nat := h.fld (ctxReg sid 0x0C) 8 2
def Hub.rsmp (h : Hub) (sid : Nat) : Nat := h.fld (ctxReg sid 0x0C) 16 5
def Hub.rsmpEn (h : Hub) (sid : Nat) : Bool := h.bit (ctxReg sid 0x0C) 23
def Hub.fmt (h : Hub) (sid : Nat) : Nat := h.fld (ctxReg sid 0x10) 0 2
def Hub.domain (h : Hub) (sid : Nat) : Nat := h.fld (ctxReg sid 0x10) 4 3
def Hub.taskEn (h : Hub) (sid : Nat) : Bool := h.bit (ctxReg sid 0x18) 8
def Hub.taskId (h : Hub) (sid : Nat) : Nat := h.fld (ctxReg sid 0x18) 0 8

/-- The SIDs of streams that are not IDLE, ascending. -/
def Hub.liveSids (h : Hub) : List Nat := (h.streams.filter (fun e => e.2.state != .idle)).map (fun e => e.1)

/-- The stream that claims slice n of a bank (1 for Bank H, 2 for Bank M). -/
def Hub.sliceOwner (h : Hub) (b n : Nat) : Option Nat := h.liveSids.find? (fun s => h.bank s == b && h.slice s == n)

/-- The stream that claims resampler context n. -/
def Hub.rsmpOwner (h : Hub) (n : Nat) : Option Nat := h.liveSids.find? (fun s => h.rsmpEn s && h.rsmp s == n)

/-- The slice that feeds a stream's resampler, as bank and number: its own, or for DERIVED its source's (R136). -/
def Hub.feed (h : Hub) (sid : Nat) : Nat × Nat :=
  let s := if h.kind sid = 6 then h.srcIndex sid else sid
  (h.bank s, h.slice s)

/-- The stream whose claim makes that slice form outputs (R136). -/
def Hub.feeder (h : Hub) (sid : Nat) : Nat := if h.kind sid = 6 then h.srcIndex sid else sid

/-! ### Physical units (R41, R118, R290) -/

/-- Layout type codes of the kinds of unit that have spares, with how many are logical and how many physical (R44). -/
def logicalCount (ty : Nat) : Nat :=
  match ty with
  | 0x10 => 48
  | 0x11 => 64
  | 0x12 => 32
  | 0x50 => 64
  | _ => 0

def physicalCount (ty : Nat) : Nat :=
  match ty with
  | 0x10 => 52
  | 0x11 => 68
  | 0x12 => 34
  | 0x50 => 72
  | _ => 0

/-- The physical unit behind a logical one. -/
def Hub.physOf (h : Hub) (ty n : Nat) : Nat := tval n h.behind (ty * 256 + n)

/-- State of a physical unit: 1 LIVE, 2 SPARE, 3 RETIRED (R41); as shipped, those past the logical count are spares (R45). -/
def Hub.unitState (h : Hub) (ty p : Nat) : Nat :=
  (tval (if p < logicalCount ty then 1 else 2) h.units (ty * 256 + p)).toNat

/-- A logical unit has a healthy unit behind it. -/
def Hub.unitOk (h : Hub) (ty n : Nat) : Bool := n < logicalCount ty && h.unitState ty (h.physOf ty n) != 3

/-- The shadow of kind k, and the shadow set (R282). -/
def Hub.shd (h : Hub) (k : Nat) : Shadow := tval Shadow.init h.rp.shadows k
def Hub.setShd (h : Hub) (k : Nat) (x : Shadow) : Hub := { h with rp := { h.rp with shadows := tset Shadow.init h.rp.shadows k x } }

/-- Logical unit n of kind k is the one shadowed, in a phase of the dwell (R282 to R285). -/
def Hub.shadowed (h : Hub) (k n phase : Nat) : Bool := (h.shd k).phase == phase && (h.shd k).live == some n

/-- A hold is in progress on a unit of a stream (R285). -/
def Hub.onHold (h : Hub) (sid : Nat) : Bool :=
  (h.bank sid != 0 && h.shadowed (h.bank sid - 1) (h.slice sid) 3) || (h.rsmpEn sid && h.shadowed 2 (h.rsmp sid) 3)

/-! ### Stream states (R66) -/

/-- A change of state, posting STREAM_STATE (R62, R66). -/
def Hub.toState (h : Hub) (sid : Nat) (st : StreamState) (cause : Option Nat) : Hub :=
  let x := h.strm sid
  let c : BitVec 4 := match cause with
    | none => x.cause
    | some n => BitVec.ofNat 4 n
  (h.setStrm sid { x with state := st, cause := c }).sysRecord 0x10 sid
    (BitVec.ofNat 40 (st.code + x.state.code * 16 + c.toNat * 256))

/-- CTX_LOSS.GAPS raised for a missing record; nothing is missing before the first record (R55). (log 21: DEDUCED) -/
def Hub.missing (h : Hub) (sid n : Nat) : Hub := if (h.strm sid).fresh then h else h.bump (ctxReg sid 0x38) 0 16 n

/-- A loss: counted, and the next record carries GAP, unless no record has been formed since START (R55). (log 21: DEDUCED) -/
def Hub.lose (h : Hub) (sid : Nat) : Hub :=
  let x := h.strm sid
  if x.fresh then h else (h.missing sid 1).setStrm sid { x with gap := true }

/-! ### Payload (R56, R57) -/

/-- Slots of a payload format, and the bits of one slot. -/
def slotCount (fmt : Nat) : Nat := if fmt = 0 then 1 else if fmt = 2 then 4 else 2
def slotWidth (fmt : Nat) : Nat :=
  match fmt with
  | 0 => 64
  | 1 => 32
  | 2 => 16
  | _ => 24

/-- The empty code of a format (R57). -/
def emptyCode (fmt : Nat) : Nat := 2 ^ (slotWidth fmt - 1)

/-- A value in a slot of w bits, with SAT if the slot limited it, and moved off the empty code (R57, R191). (log 22: DEDUCED) -/
def intoSlot (w : Nat) (unsig : Bool) (v : Int) (sat : Bool) : Nat × Bool :=
  let u := if unsig then (if v > 2 ^ w - 1 then (2 ^ w - 1 : Int) else v) else limit w v
  let lim := sat || u ≠ v
  let raw := (u % 2 ^ w).toNat
  if raw = 2 ^ (w - 1) then (if unsig then 2 ^ (w - 1) - 1 else 2 ^ (w - 1) + 1, true) else (raw, lim)

/-- A sample converted to a slot of a format (R56, R57, R65, R191). (log 22: DEDUCED) -/
def toSlot (fmt : Nat) (s : Sample) : Slot :=
  let w := slotWidth fmt
  match s.kind with
  | .pin => { bits := s.value, sat := s.sat, status := s.status }
  | .port z =>
    if fmt = 0 then { bits := s.value, sat := s.sat, status := s.status } else
    let v : Int := if z then s.value.toNat else s.value.toInt
    let (b, l) := intoSlot w z v s.sat
    { bits := BitVec.ofNat 64 b, sat := l, status := s.status }
  | .slice =>
    if fmt = 0 then { bits := s.value, sat := s.sat, status := s.status } else
    let (b, l) := intoSlot w false (roundDiv s.value.toInt (2 ^ (32 - w))) s.sat
    { bits := BitVec.ofNat 64 b, sat := l, status := s.status }

/-- The bits of a slot, or the empty code where it is not filled (R59). -/
def slotBits (fmt k : Nat) (l : List Slot) : Nat := ((l[k]?).map (fun x => x.bits.toNat)).getD (emptyCode fmt)

/-- PAY of a record with these slots filled (R56). -/
def payload (fmt : Nat) (port : Bool) (l : List Slot) : BitVec 64 :=
  let b k := slotBits fmt k l
  match fmt with
  | 0 => ((l[0]?).map (fun x => x.bits)).getD 0
  | 1 => BitVec.ofNat 64 (b 0 + b 1 * 2 ^ 32)
  | 2 => BitVec.ofNat 64 (b 0 + b 1 * 2 ^ 16 + b 2 * 2 ^ 32 + b 3 * 2 ^ 48)
  | _ =>
    let sat k := ((l[k]?).map (fun x => x.sat.toNat)).getD 0
    let st := if port then ((l.getLast?).map (fun x => x.status.toNat)).getD 0 else sat 0 + 2 * sat 1
    BitVec.ofNat 64 (b 0 + b 1 * 2 ^ 24 + st * 2 ^ 48)

/-! ### Stage 7 (R16, R18, R64) -/

/-- The recognisers that tap a stream, ascending (R64). -/
def Hub.tapsOf (h : Hub) (sid : Nat) : List Nat :=
  (List.range 4).flatMap (fun m => (ones 32 (h.reg (ctxReg sid (0x20 + 4 * m))).toNat).map (fun b => 32 * m + b))

/-- The records of a stream that no task holds back, from the oldest to the first that one does, have passed stage 7; beside the list,
those that pass it now. -/
def passSeven (sid : Nat) : List Flight → List Flight × List Flight
  | [] => ([], [])
  | f :: r =>
    let go (g : Flight) (now : List Flight) : List Flight × List Flight := (g :: (passSeven sid r).1, now ++ (passSeven sid r).2)
    if f.sid ≠ sid then go f [] else
    match f.stage with
    | .result => go { f with stage := .ready } [{ f with stage := .ready }]
    | .ready => go f []
    | .none => go f []
    | .toTask _ => (f :: r, [])
    | .inTask => (f :: r, [])
    | .held _ => (f :: r, [])

/-- Stage 7: in order of acquisition, a stream's records go to the recognisers that tap it, before they reach stage 8 (R16, R18, R64). (log 26: DESIGN CHOICE) -/
def Hub.toTaps (h : Hub) (sid : Nat) : Hub :=
  { h with flight := (passSeven sid h.flight).1,
           taps := h.taps ++ (passSeven sid h.flight).2.flatMap (fun f => f.taps.map (fun k => (k, f))) }

/-! ### Forming records (R54, R55, R58, R59, R80) -/

/-- The open record of a stream is formed and handed on, with the destination and taps then in force; a pending context commit acts at this
boundary (R64), but with the stream DRAINING it waits for IDLE (R66, R68). A record with no slot filled is not formed, and none is formed in
FAULT (R66). A grid record states the grid instant of its first point (R140). -/
def Hub.formRecord (h : Hub) (sid : Nat) : Hub :=
  let x := h.strm sid
  if x.slots.isEmpty || x.state = .idle || x.state = .fault then h else
  let acts := x.pending && x.state != .draining
  let h := if acts then h.apply (ctxReg sid 0) 64 else h
  let at_ := stated x.t0 (x.lat.getD (h.reg (ctxReg sid 0x14)))
  let (pos, ext) := match x.pos with
    | some p => (p, false)
    | none => if x.pass then (0xFFFF, true) else h.posAt (h.domain sid) (at_.setWidth 72 <<< 36)
  let sat := x.slots.any (fun s => s.sat)
  let port := (h.kind sid == 2 || h.kind sid == 3) && h.bank sid == 0
  let flg : BitVec 4 := BitVec.ofNat 4 (sat.toNat + 2 * x.gap.toNat + 4 * ext.toNat)
  let r : Record := { ts := tsOf at_, pos := pos, sid := BitVec.ofNat 8 sid, tsf := tsfOf at_, flg := flg,
                      pay := payload (h.fmt sid) port x.slots }
  let f : Flight := { sid := sid, seq := x.records + 1, rcd := r, stage := if h.taskEn sid then .toTask false else .result,
                      t0 := x.t0, per := x.per, grid := x.grid, dest := h.reg (ctxReg sid 0x1C), taps := h.tapsOf sid }
  let h1 := h.setStrm sid { x with records := x.records + 1, slots := [], pos := none, pass := false, grid := 0, lat := none, gap := false,
                                   fresh := false, pending := x.pending && !acts }
  let h2 := Hub.toTaps { h1 with flight := h1.flight ++ [f] } sid
  let h3 := if sat then h2.bump (ctxReg sid 0x38) 16 16 1 else h2
  if x.state = .armed then h3.toState sid .running none else h3

/-- A slot of the open record is filled; the last one closes it (R58, R59). -/
def Hub.fillSlot (h : Hub) (sid : Nat) (s : Sample) : Hub :=
  let x := h.strm sid
  let slot := toSlot (h.fmt sid) s
  let y := if x.slots.isEmpty then
      { x with slots := [slot], t0 := s.instant, per := s.period, pos := s.pos, pass := s.pass, grid := s.grid, lat := s.lat }
    else { x with slots := x.slots ++ [slot] }
  let h1 := h.setStrm sid y
  if y.slots.length ≥ slotCount (h.fmt sid) then h1.formRecord sid else h1

/-- The stamp unit takes a sample of a stream that forms records: what closes the open record early acts first (R54, R59, R142). -/
def Hub.takeSample (h : Hub) (sid : Nat) (s : Sample) : Hub :=
  let x := h.strm sid
  let h1 := if s.gap || s.fresh || (!x.slots.isEmpty && x.pass != s.pass) then h.formRecord sid else h
  let h2 := if s.gap then h1.lose sid else h1
  h2.fillSlot sid s

/-- A stream forms records: ARMED or RUNNING, nothing holding its source away, and TIME locked (R26, R66). -/
def Hub.forms (h : Hub) (sid : Nat) : Bool :=
  let x := h.strm sid
  (x.state = .armed || x.state = .running) && !x.detach && !x.clock && !x.power && h.tb.lock && h.pwr.state != 4

/-- A boundary of a stream: its open record closes early once the samples handed over before it are in (R59). (log 131: DEDUCED) -/
def Hub.closeAt (h : Hub) (sid : Nat) : Hub :=
  let k := (h.handoff.filter (fun e => e.1 == sid)).length
  if k = 0 then h.formRecord sid else h.setStrm sid { h.strm sid with closing := k }

/-- One sample handed over before a boundary has been taken: after the last of them the open record closes. -/
def Hub.closingDown (h : Hub) (sid : Nat) : Hub :=
  match (h.strm sid).closing with
  | 0 => h
  | k + 1 =>
    let h1 := h.setStrm sid { h.strm sid with closing := k }
    if k = 0 then h1.formRecord sid else h1

/-- RECORD_FORM: the sample leaves the hand-over of R16 if it waits there, and the stamp unit takes it. -/
def Hub.recordForm (h : Hub) (sid : Nat) (s : Sample) : Hub :=
  let h1 := { h with handoff := h.handoff.erase (sid, s) }
  let h2 := if sidOk sid && h1.forms sid then h1.takeSample sid s else h1
  if h.handoff.contains (sid, s) then h2.closingDown sid else h2

def execRecordForm (sid : Nat) (smp : Sample) (s : State) : Host.Outcome State Fault Refusal :=
  s.run (fun h => h.recordForm sid smp)

/-! ### The chain of a stream -/

/-- Address of a Bank H, Bank M and resampler page's register. -/
def hchReg (n off : Nat) : Nat := 0x40000 + n * 0x400 + off
def mchReg (n off : Nat) : Nat := 0x50000 + n * 0x200 + off
def rsmReg (n off : Nat) : Nat := 0x60000 + n * 0x100 + off

/-- Logical units, and a logical unit set. -/
def Hub.hsl (h : Hub) (n : Nat) : HSlice := tval HSlice.init h.hs n
def Hub.setHsl (h : Hub) (n : Nat) (x : HSlice) : Hub := { h with hs := tset HSlice.init h.hs n x }
def Hub.msl (h : Hub) (n : Nat) : MSlice := tval MSlice.init h.ms n
def Hub.setMsl (h : Hub) (n : Nat) (x : MSlice) : Hub := { h with ms := tset MSlice.init h.ms n x }
def Hub.rsl (h : Hub) (n : Nat) : Rsmp := tval Rsmp.init h.rs n
def Hub.setRsl (h : Hub) (n : Nat) (x : Rsmp) : Hub := { h with rs := tset Rsmp.init h.rs n x }

/-- The clock group of a Bank H channel, and a group set. -/
def Hub.groupOf (h : Hub) (n : Nat) : Nat := h.fld (hchReg n 0x0C) 0 2
def Hub.grp (h : Hub) (g : Nat) : Group := tval Group.init h.groups g
def Hub.setGrp (h : Hub) (g : Nat) (x : Group) : Hub := { h with groups := tset Group.init h.groups g x }

/-! ### The catalogue of responses (R131, R133) -/

/-- A response's descriptor: kind (1 half-band, 2 FIR, 3 droop compensator, 4 kernel), ratio, taps, group delay in half
samples or finer as 1/256 input sample, and minimum phase (R131, R133). -/
structure Resp where
  kind  : Nat
  ratio : Nat
  taps  : Nat
  gd    : Nat
  minph : Bool
deriving DecidableEq, Repr

/-- The catalogue (R133). -/
def resp (id : Nat) : Resp :=
  let lin (k r t : Nat) : Resp := ⟨k, r, t, (t - 1) * 128, false⟩
  let mp (r t g : Nat) : Resp := ⟨2, r, t, g, true⟩
  match id with
  | 0x00 => lin 1 2 11
  | 0x01 => lin 1 2 19
  | 0x02 => lin 1 2 7
  | 0x03 => lin 1 2 15
  | 0x04 => lin 1 2 27
  | 0x05 => lin 1 2 39
  | 0x06 => lin 1 2 63
  | 0x07 => lin 1 2 95
  | 0x08 => lin 3 1 15
  | 0x09 => lin 3 1 17
  | 0x0A => lin 3 1 19
  | 0x0B => lin 3 2 48
  | 0x0C => lin 3 2 56
  | 0x0D => lin 3 2 64
  | 0x0E => lin 3 1 15
  | 0x0F => lin 3 2 48
  | 0x10 => lin 2 1 63
  | 0x11 => lin 2 1 95
  | 0x12 => lin 2 1 127
  | 0x13 => lin 2 1 191
  | 0x14 => mp 1 63 2432
  | 0x15 => mp 1 95 3392
  | 0x16 => mp 1 127 4544
  | 0x17 => mp 1 191 6528
  | 0x18 => lin 2 2 96
  | 0x19 => lin 2 2 128
  | 0x1A => lin 2 2 192
  | 0x1B => lin 2 2 256
  | 0x1C => mp 2 96 3712
  | 0x1D => mp 2 128 4800
  | 0x1E => mp 2 192 6976
  | 0x1F => mp 2 256 9088
  | 0x20 => lin 2 4 192
  | 0x21 => lin 2 4 256
  | 0x22 => lin 2 4 384
  | 0x23 => lin 2 4 512
  | 0x24 => mp 4 192 7360
  | 0x25 => mp 4 256 9600
  | 0x26 => mp 4 384 13888
  | 0x27 => mp 4 512 18176
  | 0x28 => ⟨4, 0, 4, 0, false⟩
  | 0x29 => ⟨4, 0, 8, 0, false⟩
  | 0x2A => ⟨4, 0, 8, 0, false⟩
  | 0x2B => ⟨4, 0, 16, 0, false⟩
  | 0x2C => ⟨4, 0, 16, 0, false⟩
  | 0x2D => ⟨2, 1, 1, 0, false⟩
  | 0x2E => ⟨2, 2, 2, 128, false⟩
  | 0x2F => ⟨2, 4, 4, 384, false⟩
  | _ => ⟨0, 0, 0, 0, false⟩

/-! ### Chains and their commits (R112, R117, R120, R125 to R128, R148) -/

/-- The lowest lattice point at or above a position (R137, R143). (log 39: DEDUCED) -/
def latticeFrom (grid : Word) (cyc p : Nat) : Nat :=
  let sp := bits grid 0 10
  let o := bits grid 16 10
  let k := if p ≤ o then 0 else (p - o + sp - 1) / max sp 1
  let q := o + k * sp
  if q < cyc then q else o

/-- The configuration of a Bank H chain. -/
structure HCfg where
  order : Nat
  ratio : Nat
  hb1   : Nat
  hb2   : Nat
  hbs   : Nat
  fir   : Nat
  phd   : Nat
deriving DecidableEq, Repr

/-- The configuration three register values give. -/
def hCfg (cic filt phd : Word) : HCfg :=
  { order := bits cic 0 3, ratio := bits cic 16 10, hb1 := bits filt 0 8, hb2 := bits filt 8 8, hbs := bits filt 16 2,
    fir := bits filt 24 8, phd := bits phd 0 16 }

/-- The configuration in force, and the one a COMMIT would make. -/
def Hub.hCfgOf (h : Hub) (n : Nat) : HCfg := hCfg (h.reg (hchReg n 0)) (h.reg (hchReg n 4)) (h.reg (hchReg n 8))
def Hub.hCfgNext (h : Hub) (n : Nat) : HCfg := hCfg (h.seen (hchReg n 0)) (h.seen (hchReg n 4)) (h.seen (hchReg n 8))

/-- R_t (R112). -/
def HCfg.total (c : HCfg) : Nat := c.ratio * 2 ^ c.hbs * (resp c.fir).ratio

/-- Q ahead of the final FIR. -/
def HCfg.firQ (c : HCfg) : Nat := c.ratio * 2 ^ c.hbs

/-- D of R81, in 1/256 modulator period. -/
def HCfg.delay256 (c : HCfg) : Nat :=
  c.order * (c.ratio - 1) * 128 + (if c.hbs ≥ 1 then (resp c.hb1).gd * c.ratio else 0)
    + (if c.hbs ≥ 2 then (resp c.hb2).gd * (c.ratio * 2) else 0) + (resp c.fir).gd * c.firQ + c.total * 256 + c.phd * 4

/-- L of R127. -/
def HCfg.span (c : HCfg) : Nat :=
  c.phd / 64 + c.order * (c.ratio - 1) + 1 + (if c.hbs ≥ 1 then ((resp c.hb1).taps - 1) * c.ratio else 0)
    + (if c.hbs ≥ 2 then ((resp c.hb2).taps - 1) * (c.ratio * 2) else 0) + ((resp c.fir).taps - 1) * c.firQ + 3 * c.total

/-- DIV of a clock group (R119). -/
def Hub.div (h : Hub) (g : Nat) : Nat := h.fld (0x4F000 + 4 * g) 0 6

/-- The rate of a configuration at a DIV lies from 1 000 to 390 625 S/s at nominal TINC (R116). -/
def rateOk (c : HCfg) (div : Nat) : Bool := decide (640 ≤ div * c.total ∧ div * c.total ≤ 250000)

/-- The configuration of a Bank M chain. -/
structure MCfg where
  avg    : Nat
  stages : Nat
  id1    : Nat
  id2    : Nat
deriving DecidableEq, Repr

def mCfg (w : Word) : MCfg := { avg := bits w 0 4 + 1, stages := bits w 4 2, id1 := bits w 16 8, id2 := bits w 24 8 }

/-- Ratios of the stages, the total ratio, G in 1/256 input, and L (R120, R127). -/
def MCfg.q1 (c : MCfg) : Nat := if c.stages ≥ 1 then (resp c.id1).ratio else 1
def MCfg.q2 (c : MCfg) : Nat := if c.stages ≥ 2 then (resp c.id2).ratio else 1
def MCfg.total (c : MCfg) : Nat := c.avg * c.q1 * c.q2
def MCfg.delay256 (c : MCfg) : Nat :=
  (c.avg - 1) * 128 + (if c.stages ≥ 1 then (resp c.id1).gd * c.avg else 0)
    + (if c.stages ≥ 2 then (resp c.id2).gd * (c.avg * c.q1) else 0)
def MCfg.span (c : MCfg) : Nat :=
  c.avg * (if c.stages ≥ 1 then (resp c.id1).taps else 1)
    + (if c.stages ≥ 2 then ((resp c.id2).taps - 1) * (c.avg * c.q1) else 0)

/-- Priming restarts in a shadowed unit: its shadow warms up again, unless a hold runs to its vote (R288). -/
def Hub.rewarm (h : Hub) (k n : Nat) : Hub :=
  if h.shadowed k n 1 || h.shadowed k n 2 then h.setShd k { h.shd k with warmed := 0, phase := 1 } else h

/-- The streams that take the outputs of a slice: the one that claims it, and those derived from it (R136). -/
def Hub.sliceStreams (h : Hub) (bank n : Nat) : List Nat :=
  match h.sliceOwner bank n with
  | none => []
  | some sid => sid :: h.liveSids.filter (fun d => h.kind d == 6 && h.srcIndex d == sid)

/-- A boundary of a slice closes the open record of every stream that takes its outputs (R59, R142); outputs that a hold keeps come first, and the
next output after them carries the cut. -/
def Hub.boundary (h : Hub) (bank n : Nat) : Hub :=
  if h.shadowed (bank - 1) n 3 then h else
  (h.sliceStreams bank n).foldl (fun g s => if g.onHold s then g else g.closeAt s) h

/-- The new configuration of a Bank H slice takes effect: a change of R_t restarts priming, it or a change of D closes the open record,
and the outputs that mix both configurations are counted (R59, R126 to R128). -/
def Hub.hApply (h : Hub) (n : Nat) : Hub :=
  let old := h.hCfgOf n
  let h1 := h.apply (hchReg n 0) 0x400
  let c := h1.hCfgOf n
  let x := { h1.hsl n with pending := false }
  let claimed := (h1.sliceOwner 1 n).isSome
  if c.total ≠ old.total then
    ((h1.rewarm 0 n).setHsl n { x with count := 0, priming := claimed, settle := 0, cut := claimed }).boundary 1 n
  else
    let moved := claimed && c.delay256 ≠ old.delay256
    let h2 := h1.setHsl n { x with cut := x.cut || moved, settle := if claimed && c ≠ old then (c.span + c.total - 1) / c.total else x.settle }
    if moved then h2.boundary 1 n else h2

/-- The new configuration of a Bank M slice takes effect (R59, R126 to R128). -/
def Hub.mApply (h : Hub) (n : Nat) : Hub :=
  let old := mCfg (h.reg (mchReg n 0))
  let h1 := h.apply (mchReg n 0) 0x200
  let c := mCfg (h1.reg (mchReg n 0))
  let x := { h1.msl n with pending := false }
  let claimed := (h1.sliceOwner 2 n).isSome
  if c.total ≠ old.total then
    ((h1.rewarm 1 n).setMsl n { x with count := 0, priming := claimed, settle := 0, cut := claimed }).boundary 2 n
  else
    let moved := claimed && c.delay256 ≠ old.delay256
    let h2 := h1.setMsl n { x with cut := x.cut || moved, settle := if claimed && c ≠ old then (c.span + c.total - 1) / c.total else x.settle }
    if moved then h2.boundary 2 n else h2

/-- The values a COMMIT of a resampler page captured take effect; a change of the grid closes the open record, and the lattice goes on from the
lowest new point at or above p (R59, R148). (log 39: DEDUCED) -/
def Hub.rsApply (h : Hub) (n : Nat) (p : Option Nat) : Hub :=
  let h1 := h.apply (rsmReg n 0) 0x100
  let x := { h1.rsl n with pending := false }
  let grid := h1.reg (rsmReg n 0)
  match (if grid = h.reg (rsmReg n 0) then none else h1.rsmpOwner n) with
  | none => h1.setRsl n x
  | some sid =>
    let h2 := h1.setRsl n { x with cut := true, next := p.map (fun k => latticeFrom grid (cycleOf (h1.domain sid) / 65536) k) }
    if h2.onHold sid then h2 else h2.closeAt sid

/-- A lap of a DIST domain begins for the lattice of context n: the open record closes, and the next starts afresh (R137). -/
def Hub.newLap (h : Hub) (sid n : Nat) : Hub :=
  let h1 := h.setRsl n { h.rsl n with cut := true }
  if h1.onHold sid then h1 else h1.closeAt sid

/-- Laps that zeros have ended, oldest first, while the next point lies at or past where the lap ended: the lattice goes on at ORIGIN of the lap
after it (R137). -/
def Hub.turnLaps (h : Hub) (sid n : Nat) : List Nat → Hub
  | [] => h
  | z :: r =>
    match (h.rsl n).next with
    | none => h.setRsl n { h.rsl n with laps := [] }
    | some p =>
      if p * 65536 < z then h
      else
        let g := h.newLap sid n
        (g.setRsl n { g.rsl n with laps := r, next := some (latticeFrom (g.reg (rsmReg n 0)) 65535 0) }).turnLaps sid n r

def Hub.endLaps (h : Hub) (sid n : Nat) : Hub := h.turnLaps sid n (h.rsl n).laps

/-- A stream's slice and resampler form no outputs any more: commits that wait in them apply (R126, R148). -/
def Hub.chainNow (h : Hub) (sid : Nat) : Hub :=
  let n := h.slice sid
  let h1 := match h.bank sid with
    | 1 => if (h.hsl n).pending then h.hApply n else h
    | 2 => if (h.msl n).pending then h.mApply n else h
    | _ => h
  let m := h1.rsmp sid
  if h1.rsmpEn sid && (h1.rsl m).pending then h1.rsApply m (h1.rsl m).next else h1

/-! ### Stage 8 -/

/-- The stream goes to FAULT: the record that met it is discarded and counted, and the one not yet closed is not formed (R66). (log 132: DEDUCED) -/
def Hub.toFault (h : Hub) (sid cause : Nat) : Hub :=
  let x := h.strm sid
  let h1 := h.missing sid 1
  if x.state = .running || x.state = .waiting then
    ((h1.setStrm sid { x with slots := [], pos := none, grid := 0, lat := none }).toState sid .fault (some cause)).chainNow sid
  else h1

/-- The first record of a stream in flight after a given one carries GAP. -/
def flagNext (sid : Nat) (seq : BitVec 48) : List Flight → List Flight
  | [] => []
  | f :: r =>
    if f.sid = sid ∧ seq.toNat < f.seq.toNat then { f with rcd := { f.rcd with flg := f.rcd.flg ||| 2 } } :: r else f :: flagNext sid seq r

/-- A loss found at stages 5 to 8 flags the next record of the stream after the one lost: one already in flight, or else the next one formed (R54,
R55). -/
def Hub.loseAt (h : Hub) (sid : Nat) (seq : BitVec 48) : Hub :=
  if h.flight.any (fun f => f.sid == sid && decide (seq.toNat < f.seq.toNat)) then
    { h.missing sid 1 with flight := flagNext sid seq h.flight }
  else h.lose sid

/-- The oldest record of a stream between the stamp unit and its ring. -/
def Hub.oldest (h : Hub) (sid : Nat) : Option Flight := h.flight.find? (fun f => f.sid == sid)

/-- The oldest record of a stream leaves the list of records in flight. -/
def dropFlight (sid : Nat) : List Flight → List Flight
  | [] => []
  | f :: r => if f.sid = sid then r else f :: dropFlight sid r

/-- A record at stage 8: to its ring if STORE is 1, both as in force when it was formed (R16, R64, R66, R229). -/
def State.storeRecord (s : State) (sid : Nat) (dest : Word) (r : Record) : State :=
  let h := s.hub
  let n := bits dest 0 7
  if !dest.getLsbD 7 then s
  else if h.ringOn n then s.ringWrite n r
  else { s with hub := h.toFault sid 7 }

/-- RECORD_STORE: the oldest record of the stream, once no task holds it back (R18) and it has passed stage 7, passes stage 8. (log 26: DESIGN CHOICE) -/
def execRecordStore (sid : Nat) (s : State) : Host.Outcome State Fault Refusal :=
  match s.hub.oldest sid with
  | none => .next s
  | some f =>
    let s1 := s.mapHub (fun h => { h with flight := dropFlight sid h.flight })
    match f.stage with
    | .ready => .next (s1.storeRecord sid f.dest f.rcd).settle
    | .none => .next s1
    | .result => .next s
    | .toTask _ => .next s
    | .inTask => .next s
    | .held _ => .next s

/-! ### Priming, STOP and IDLE -/

/-- A slice primes afresh: partial sums and decimation phase go, histories stay (R127, R129). -/
def Hub.primeH (h : Hub) (n : Nat) : Hub :=
  h.setHsl n { h.hsl n with count := 0, priming := true, settle := 0 }
def Hub.primeM (h : Hub) (n : Nat) : Hub :=
  h.setMsl n { h.msl n with count := 0, priming := true, settle := 0, holes := [] }

/-- The slice of a stream primes (R66, R127). -/
def Hub.primeSlice (h : Hub) (sid : Nat) : Hub :=
  match h.bank sid with
  | 1 => h.primeH (h.slice sid)
  | 2 => h.primeM (h.slice sid)
  | _ => h

/-- What takes a stream's outputs finds some absent; its own resampler begins anew where wipe is set, losing its history (R66, R141). -/
def Hub.primeRest (h : Hub) (sid : Nat) (wipe : Bool) : Hub :=
  let h2 := (h.liveSids.filter (fun d => h.kind d == 6 && h.srcIndex d == sid)).foldl
    (fun g d => g.setRsl (g.rsmp d) { g.rsl (g.rsmp d) with hole := true }) h
  if h2.rsmpEn sid then
    let x := h2.rsl (h2.rsmp sid)
    h2.setRsl (h2.rsmp sid) { x with hist := if wipe then [] else x.hist, hole := true, loss := 0 }
  else h2

/-- The chain of a stream primes. Outputs that a hold keeps have still to reach its resampler, which then begins anew once they have (R289). -/
def Hub.primeChain (h : Hub) (sid : Nat) (wipe : Bool) : Hub :=
  let h1 := h.primeSlice sid
  if wipe && h.onHold sid then h1 else h1.primeRest sid wipe

/-- The chain's units are freed: commits that wait in them apply (R66, R126, R148). -/
def Hub.freeChain (h : Hub) (sid : Nat) : Hub :=
  let h1 := match h.bank sid with
    | 1 => let n := h.slice sid
           (h.apply (hchReg n 0) 0x400).setHsl n { h.hsl n with pending := false, priming := false, count := 0, cut := false }
    | 2 => let n := h.slice sid
           (h.apply (mchReg n 0) 0x200).setMsl n
             { h.msl n with pending := false, priming := false, count := 0, cut := false, syncWait := false, holes := [], after := none }
    | _ => h
  if h1.rsmpEn sid then
    let n := h1.rsmp sid
    (h1.apply (rsmReg n 0) 0x100).setRsl n { h1.rsl n with
      pending := false, next := none, lastT := none, loss := 0, cut := false, gap := false, laps := [] }
  else h1

/-- Entry to IDLE: committed SH values apply and the units are free (R66, R68, R69). -/
def Hub.toIdle (h : Hub) (sid : Nat) : Hub :=
  let h1 := ((h.freeChain sid).apply (ctxReg sid 0) 64).toState sid .idle none
  h1.setStrm sid { h1.strm sid with slots := [], pending := false, gap := false, fresh := true, closing := 0 }

/-- STREAM_DRAIN_COMPLETE: the last formed record of a DRAINING stream has been written or discarded (R66), and no hold keeps outputs
formed before STOP (R289). -/
def Hub.drained (h : Hub) (sid : Nat) : Hub :=
  if (h.strm sid).state = .draining ∧ (h.oldest sid).isNone ∧ !h.onHold sid then h.toIdle sid else h

def execStreamDrainComplete (sid : Nat) (s : State) : Host.Outcome State Fault Refusal := s.run (fun h => h.drained sid)

/-- STOP (R66, R68): the record not yet closed is discarded, once a hold has released what was formed before it (R289). -/
def Hub.ctxStop (h : Hub) (sid : Nat) : Hub :=
  let x := h.strm sid
  match x.state with
  | .idle => h
  | .draining => h
  | .armed => h.toIdle sid
  | _ =>
    let h1 := (h.primeChain sid true).setStrm sid (if h.onHold sid then x else { x with slots := [], gap := false })
    h1.toState sid .draining none

def execCtxStop (sid : Nat) (s : State) : Host.Outcome State Fault Refusal :=
  s.run (fun h => if sidOk sid then h.ctxStop sid else h)

/-- COMMIT of a context: at once in IDLE, else at the next record formed (R64, R68). -/
def Hub.ctxCommit (h : Hub) (sid : Nat) : Hub :=
  let x := h.strm sid
  let h1 := h.capture (ctxReg sid 0) 64
  if x.state = .idle then h1.apply (ctxReg sid 0) 64 else h1.setStrm sid { x with pending := true }

def execCtxCommit (sid : Nat) (s : State) : Host.Outcome State Fault Refusal :=
  s.run (fun h => if sidOk sid then h.ctxCommit sid else h)

/-! ### Causes of WAITING (R66) -/

/-- A cause of WAITING arises: 8 DETACH, 9 CLOCK, 12 POWER. A RUNNING stream closes its open record, once a hold has released what was formed
before (R287), and waits, its chain's pending commits acting (R126); an ARMED one only takes the cause, and discards its open record; a WAITING
one takes CAUSE 12 alone (R58, R66, R313). (log 118: DEDUCED) -/
def Hub.suspend (h : Hub) (sid cause : Nat) : Hub :=
  let x := h.strm sid
  let y := match cause with
    | 8 => { x with detach := true }
    | 9 => { x with clock := true }
    | _ => { x with power := true }
  match x.state with
  | .running =>
    let h1 := if h.onHold sid then h else h.formRecord sid
    let z := h1.strm sid
    (((h1.setStrm sid { z with detach := y.detach, clock := y.clock, power := y.power }).primeChain sid true).toState sid .waiting
      (some cause)).chainNow sid
  | .armed => (h.setStrm sid { y with cause := BitVec.ofNat 4 cause, slots := [], pos := none }).primeChain sid true
  | .waiting => h.setStrm sid (if cause = 12 then { y with cause := 12 } else y)
  | _ => h.setStrm sid y

/-- A cause of WAITING ends. With none left, a WAITING stream runs again and its next record carries GAP (R66, R198, R315). -/
def Hub.resume (h : Hub) (sid cause : Nat) : Hub :=
  let x := h.strm sid
  let y := match cause with
    | 8 => { x with detach := false }
    | 9 => { x with clock := false }
    | _ => { x with power := false }
  let left := y.detach || y.clock || y.power
  let z := if x.state = .waiting ∧ cause = 12 ∧ y.detach then { y with cause := 8 } else y
  let h1 := h.setStrm sid z
  if left then h1 else
  match x.state with
  | .waiting => ((h1.setStrm sid { z with gap := true }).primeChain sid true).toState sid .running none
  | .armed => h1.primeChain sid true
  | _ => h1

/-! ### START (R65) -/

/-- The domain checks of R147 on a resampler page's grid, given its two registers: whether they pass. -/
def gridOk (dom : Nat) (grid cfg : Word) : Bool :=
  let sp := bits grid 0 10
  let fits := if dom = 1 then decide (1 ≤ sp ∧ sp ≤ 512) && divides 46080 sp else decide (1 ≤ sp ∧ sp ≤ 1000)
  fits && decide (bits grid 16 10 < sp) && (resp (bits cfg 0 8)).kind == 4

/-- The checks of R65 in order: the first that fails, by its value. -/
def Hub.startCheck (h : Hub) (sid : Nat) : Option Nat :=
  let k := h.kind sid
  let b := h.bank sid
  let i := h.srcIndex sid
  let sl := h.slice sid
  let badSrc := k = 0 || (k = 6 && h.bank i = 0)
  let badChain := (b = 1 && (k ≠ 1 || sl ≠ i)) || (b = 2 && !(k = 2 || k = 3)) || (k = 1 && b = 0)
    || ((k = 4 || k = 5 || k = 6) && b ≠ 0) || (k = 6 && !h.rsmpEn sid)
    || (h.rsmpEn sid && h.domain sid ≠ 0 && !gridOk (h.domain sid) (h.reg (rsmReg (h.rsmp sid) 0)) (h.reg (rsmReg (h.rsmp sid) 4)))
  let busy := (b ≠ 0 && ((h.sliceOwner b sl).isSome || !h.unitOk (if b = 1 then 0x10 else 0x11) sl))
    || (h.rsmpEn sid && ((h.rsmpOwner (h.rsmp sid)).isSome || !h.unitOk 0x12 (h.rsmp sid)))
  let badFmt := (k = 4 || k = 5) && h.fmt sid ≠ 0
  let badDom := h.rsmpEn sid && h.domain sid = 0
  let badTask := h.taskEn sid && (match tget h.images (h.taskId sid) with
    | none => true
    | some signed => !signed && h.lc ≥ 2)
  let badRing := h.bit (ctxReg sid 0x1C) 7 && !h.ringOn (h.fld (ctxReg sid 0x1C) 0 7)
  if badSrc then some 1 else if badChain then some 2 else if busy then some 3 else if badFmt then some 4
  else if badDom then some 5 else if badTask then some 6 else if badRing then some 7 else none

/-- A probe that a stream's source is bound to is ABSENT (R198). (log 25: DEDUCED) -/
def Hub.sourceAbsent (h : Hub) (sid : Nat) : Bool :=
  let i := h.srcIndex sid
  let absent (j : Nat) : Bool := (tval Probe.init h.probes j).state = .absent
  let byPort (m : Nat) : Bool := (List.range 64).any (fun j =>
    absent j && h.fld (0x98000 + 0x20 * j) 1 3 == m && h.fld (0x98000 + 0x20 * j) 4 6 == i)
  let named := h.fld (0x90008 + 0x20 * i) 16 6
  let entry := h.bit (0x90008 + 0x20 * i) 22 && h.fld (0x98000 + 0x20 * named) 1 3 != 4 && absent named
  match h.kind sid with
  | 1 => byPort 2
  | 2 => entry
  | 3 => entry
  | 5 => byPort 3
  | _ => false

/-- Serial port p runs in HOLLOW (R306, R317). -/
def Hub.hollowPort (h : Hub) (p : Nat) : Bool :=
  (h.bit 0x10108 4 && h.fld 0x10108 0 4 == p) || (h.bit 0x10108 12 && h.fld 0x10108 8 4 == p)

/-- A power state covers a stream (R308): VALE and HOLLOW run part of the sources, BASIN none. -/
def Hub.streamCovered (h : Hub) (p sid : Nat) : Bool :=
  let k := h.kind sid
  let i := h.srcIndex sid
  match p with
  | 0 => true
  | 1 => true
  | 2 => k ≠ 1 && k ≠ 6 && !h.rsmpEn sid
  | 3 =>
    let port := k = 2 && !h.bit (0x90004 + 0x20 * i) 4 && h.hollowPort (h.fld (0x90004 + 0x20 * i) 0 4)
      && h.fld (0x90008 + 0x20 * i) 0 2 ≠ 1
    (k = 4 || k = 5 || port) && h.bank sid = 0 && !h.rsmpEn sid
      && (!h.bit (ctxReg sid 0x1C) 7 || h.ringRetained (h.fld (ctxReg sid 0x1C) 0 7))
  | _ => false

/-- The power state in force has switched the source off. -/
def Hub.sourceOff (h : Hub) (sid : Nat) : Bool := !h.streamCovered h.pwr.state sid

/-- START of a grid stream: with its domain synchronised, its lattice begins at the position of the moment (R143). (log 39: DEDUCED) -/
def Hub.gridStart (h : Hub) (sid : Nat) : Hub :=
  if !h.rsmpEn sid then h else
  let n := h.rsmp sid
  let dom := h.domain sid
  h.setRsl n { h.rsl n with
    lost := false, lastT := some h.instant, gap := false, laps := [],
    next := (h.exactNow dom).map (fun p => latticeFrom (h.reg (rsmReg n 0)) (cycleOf dom / 65536) ((p + 65535) / 65536)) }

/-- What holds a stream's source away at START: an absent probe, holdover, or a power state. (log 25: DEDUCED) -/
def Hub.ctxStart (h : Hub) (sid : Nat) : Hub :=
  let x := h.strm sid
  if x.state ≠ .idle then h.flag (ctxErr sid) 3 0 else
  match h.startCheck sid with
  | some c => (h.setStrm sid { x with cause := BitVec.ofNat 4 c }).flag (ctxErr sid) 2 0
  | none =>
    let y := { x with slots := [], pos := none, pass := false, grid := 0, lat := none, closing := 0, gap := false, fresh := true, edges := 0, detach := h.sourceAbsent sid,
                      clock := h.tb.holdover, power := h.sourceOff sid, lastEng := none }
    let h1 := ((h.setStrm sid y).primeChain sid false).gridStart sid
    let h2 := if h1.bank sid = 2 then
        let n := h1.slice sid
        h1.setMsl n { h1.msl n with syncWait := h1.bit (mchReg n 0) 6, after := none }
      else h1
    h2.toState sid .armed none

def execCtxStart (sid : Nat) (s : State) : Host.Outcome State Fault Refusal :=
  s.run (fun h => if sidOk sid then h.ctxStart sid else h)

/-! ### Context registers (R64) -/

/-- CTX_STATUS. -/
def Hub.ctxStatus (h : Hub) (sid : Nat) : Word :=
  let x := h.strm sid
  BitVec.ofNat 32 (x.state.code + x.cause.toNat * 16 + x.pending.toNat * 256)

/-- What a fabric read of a context gives, and the hub after it. -/
def Hub.ctxRead (h : Hub) (sid off : Nat) : Word × Hub :=
  match off with
  | 0x04 => (h.ctxStatus sid, h)
  | 0x30 => ((h.strm sid).records.setWidth 32, h.copyLow (ctxReg sid 0x30) ((h.strm sid).records.setWidth 128))
  | 0x34 => (h.copied (ctxReg sid 0x30) 32 &&& 0xFFFF, h)
  | _ => (h.seen (ctxReg sid off), h)

/-- The range of CTX_SRC.INDEX for a KIND (R64). (log 23: DEDUCED) -/
def indexOk (kind i : Nat) : Bool :=
  match kind with
  | 1 => i < 48
  | 2 => i < 128
  | 3 => i < 128
  | 4 => i < 8
  | 5 => i < 8
  | 6 => 1 ≤ i
  | _ => true

/-- A fabric write to a context: STOP wins over START, and a COMMIT of the same write is kept (R64, R68). A COMMIT written with
START in IDLE acts first, so START is checked against the new values. (log 23: DEDUCED) (log 122: DESIGN CHOICE) -/
def Hub.ctxWrite (h : Hub) (sid off : Nat) (v : Word) : Hub :=
  match off with
  | 0x00 =>
    let h1 := if v.getLsbD 2 then h.ctxCommit sid else h
    if v.getLsbD 1 then h1.ctxStop sid else if v.getLsbD 0 then h1.ctxStart sid else h1
  | 0x08 =>
    let k := if (bits v 0 4) ≤ 6 then bits v 0 4 else h.kind sid
    h.putReg (ctxErr sid) 0 (ctxReg sid off) ((h.strm sid).state != .idle) (fun f n => f.lsb ≠ 8 || indexOk k n) v
  | _ => h.putReg (ctxErr sid) 0 (ctxReg sid off) ((h.strm sid).state != .idle) anyField v

end Sys2Proof.Machine
end

