-- ==== Sys2Proof/Machine/Sched.lean ====
section
/-! DEFINITION. Transaction entries and their triggers (R181 to R194): when a trigger falls due, what holds it, and how it enters
its port's queue. -/

namespace Sys2Proof.Machine

/-- SCH_ERR (R194). A probe entry is named by its number plus 0x80. -/
def schErr : ErrReg := ⟨0x9F07C, 3, 16, 8⟩

/-- Address of a transaction entry's word, and of a probe entry's. -/
def txReg (i off : Nat) : Nat := 0x90000 + 0x20 * i + off
def prReg (j off : Nat) : Nat := 0x98000 + 0x20 * j + off

/-- The entry i, the probe j, and each set. -/
def Hub.txe (h : Hub) (i : Nat) : TxEntry := tval TxEntry.init h.tx i
def Hub.setTxe (h : Hub) (i : Nat) (x : TxEntry) : Hub := { h with tx := tset TxEntry.init h.tx i x }
def Hub.prb (h : Hub) (j : Nat) : Probe := tval Probe.init h.probes j
def Hub.setPrb (h : Hub) (j : Nat) (x : Probe) : Hub := { h with probes := tset Probe.init h.probes j x }

/-- The queue of a port, 0 to 15 for SP and 16 to 23 for TW, and the queue set. -/
def Hub.pq (h : Hub) (p : Nat) : PortQueue := tval PortQueue.init h.queues p
def Hub.setPq (h : Hub) (p : Nat) (x : PortQueue) : Hub := { h with queues := tset PortQueue.init h.queues p x }

/-- The port of an entry. -/
def Hub.txPort (h : Hub) (i : Nat) : Nat := h.fld (txReg i 4) 0 4 + 16 * h.fld (txReg i 4) 4 1

/-- The index of a port in the queues. -/
def PortId.place (p : PortId) : Nat :=
  match p with
  | .sp n => n
  | .tw n => 16 + n

/-- The entry accepts triggers. -/
def Hub.txOn (h : Hub) (i : Nat) : Bool := h.bit (txReg i 0) 0

/-- Kind of trigger an entry is set for: 0 TIME, 1 POS, 2 PIN, 3 CHAIN. -/
def Hub.trig (h : Hub) (i : Nat) : Nat := h.fld (txReg i 8) 0 2

/-- Entry i is bound to probe j: it names it with PROBE_EN, and an ETH probe binds nothing (R198). -/
def Hub.bindsTo (h : Hub) (i j : Nat) : Bool := h.bit (txReg i 8) 22 && h.fld (txReg i 8) 16 6 == j && h.fld (prReg j 0) 1 3 != 4

/-- A probe bound to entry i is ABSENT (R198). -/
def Hub.entryAbsent (h : Hub) (i : Nat) : Bool :=
  let j := h.fld (txReg i 8) 16 6
  h.bindsTo i j && (h.prb j).state = .absent

/-- The port is on in a power state: all in RUN to VALE, the HOLLOW serial ports in HOLLOW, none in BASIN (R306). -/
def Hub.portOn (h : Hub) (st p : Nat) : Bool := st < 3 || (st = 3 && p < 16 && h.hollowPort p)

/-- A port begins transactions: not one that the power state turns off, nor one that a state now being entered turns off (R193, R313). (log 72: DEDUCED) -/
def Hub.portBegins (h : Hub) (p : Nat) : Bool := h.portOn h.pwr.state p && (!h.pwr.entering || h.portOn h.pwr.target p)

/-- The port of a probe that sends frames (TWID and SPID), and its transaction with the fields in force (R195, R196). -/
def Hub.probePort (h : Hub) (j : Nat) : Option Nat :=
  match h.fld (prReg j 0) 1 3 with
  | 0 => some (16 + h.fld (prReg j 0) 4 6)
  | 1 => some (h.fld (prReg j 0) 4 6)
  | _ => none
def Hub.probeTxn (h : Hub) (j : Nat) : Txn :=
  let t := h.reg (prReg j 4)
  { src := .probe j, cls := h.fld (prReg j 0) 10 2, seq := h.seq, at_ := h.now, fmt := bits t 20 3, sel := bits t 16 3, addr := bits t 0 10, ref := 0, ofs := 0,
    width := 32, unsig := true, le := false, per := none }

/-- Streams fed by entry i: KIND SPORT or TWIRE with INDEX i (R191). -/
def Hub.fedBy (h : Hub) (i : Nat) : List Nat :=
  h.liveSids.filter (fun s => (h.kind s == 2 || h.kind s == 3) && h.srcIndex s == i)

/-- The transaction that a trigger of entry i makes, with the fields in force (R183). -/
def Hub.txnOf (h : Hub) (i : Nat) : Txn :=
  let a := h.reg (txReg i 4)
  let b := h.reg (txReg i 8)
  let v := h.reg (txReg i 0x14)
  { src := .entry i, cls := bits b 2 2, seq := h.seq, at_ := h.now, fmt := bits a 5 3, sel := bits a 8 3, addr := bits a 16 10,
    ref := bits b 24 8, ofs := bits v 0 11, width := bits v 16 6 + 1, unsig := v.getLsbD 24, le := v.getLsbD 25,
    per := if bits b 0 2 = 0 then some ((h.reg (txReg i 0xC)).toNat * 2 ^ 40) else none }

/-- TX_STATUS.STATE (R181): 0 OFF, 1 IDLE, 2 HELD, 3 QUEUED, 4 ACTIVE. An entry with EN = 0 is OFF, whatever still runs for it (R182). -/
def Hub.txState (h : Hub) (i : Nat) : Nat :=
  let x := h.txe i
  if !h.txOn i then 0 else if x.held.isSome then 2 else if x.active then 4 else if x.queued then 3 else 1

/-- A transaction enters its port's queue. -/
def Hub.enqueue (h : Hub) (p : Nat) (t : Txn) : Hub := h.setPq p { h.pq p with waiting := (h.pq p).waiting ++ [t] }

/-- The Bank M spacing of R192 holds entry i back: it feeds a Bank M slice and its last transaction began under 5 000 ns ago. (log 114: DEDUCED) -/
def Hub.spaced (h : Hub) (i : Nat) : Bool :=
  (h.fedBy i).any (fun s => h.bank s == 2) &&
    (match (h.txe i).started with
      | none => false
      | some t => decide (h.now < t + 5000 * 64))

/-- Serial port n and two-wire port n, and each set. -/
def Hub.spt (h : Hub) (n : Nat) : SerialPort := tval SerialPort.init h.sps n
def Hub.setSpt (h : Hub) (n : Nat) (x : SerialPort) : Hub := { h with sps := tset SerialPort.init h.sps n x }
def Hub.twt (h : Hub) (n : Nat) : TwoWirePort := tval TwoWirePort.init h.tws n
def Hub.setTwt (h : Hub) (n : Nat) (x : TwoWirePort) : Hub := { h with tws := tset TwoWirePort.init h.tws n x }

/-- Address of a serial port's register, and of a two-wire port's. -/
def spReg (n off : Nat) : Nat := 0xA0000 + 0x1000 * n + off
def twReg (n off : Nat) : Nat := 0xB0000 + 0x1000 * n + off

/-- A pending commit of a port page takes effect (R156, R163). -/
def Hub.spApply (h : Hub) (n : Nat) : Hub :=
  if (h.spt n).pending then (h.apply (spReg n 0) 0x1000).setSpt n { h.spt n with pending := false } else h
def Hub.twApply (h : Hub) (n : Nat) : Hub :=
  if (h.twt n).pending then (h.apply (twReg n 0) 0x1000).setTwt n { h.twt n with pending := false } else h

/-- A controller or target frame is in progress. -/
def TwoWirePort.inFrame (x : TwoWirePort) : Bool := x.phase = .frame || x.tgt.isSome

/-- While neither role of a two-wire port has a frame in progress, a commit that waits applies (R163). -/
def Hub.twRest (h : Hub) (n : Nat) : Hub := if (h.twt n).inFrame then h else h.twApply n

/-- The active transaction of port p (0 to 15 serial, 16 to 23 two-wire) ends with a completion code, which the port counts (R158,
R165). (log 47: DEDUCED) -/
def Hub.portEnd (h : Hub) (p code : Nat) : Hub :=
  if p < 16 then
    let h1 := h.setSpt p { h.spt p with phase := .done code }
    match code with
    | 1 => h1.bump (spReg p 0x00C) 0 16 1
    | 2 => h1.bump (spReg p 0x00C) 16 16 1
    | _ => h1
  else
    let n := p - 16
    let h1 := (h.setTwt n { h.twt n with phase := .done code }).twRest n
    match code with
    | 1 => h1.bump (twReg n 0x02C) 0 16 1
    | 2 => h1.bump (twReg n 0x02C) 16 16 1
    | 4 => h1.bump (twReg n 0x024) 0 8 1
    | 5 => h1.bump (twReg n 0x024) 8 8 1
    | 6 => h1.bump (twReg n 0x024) 16 8 1
    | 8 => h1.bump (twReg n 0x024) 24 8 1
    | _ => h1

/-- A trigger held while the transaction waits between attempts ends it at once: NOREADY on a serial port, the code of its last attempt
on a two-wire port (R157, R166, R184). -/
def Hub.endWait (h : Hub) (p : Nat) : Hub :=
  if p < 16 then (if (h.spt p).phase = .wait then h.portEnd p 1 else h)
  else
    let x := h.twt (p - 16)
    if x.phase = .wait ∧ x.last ≠ 0 then h.portEnd p x.last else h

/-- A trigger enters the queue if the entry has none in flight and the queue has a place; else it is held (R184, R192). -/
def Hub.place (h : Hub) (i : Nat) (t : Txn) : Hub :=
  let x := h.txe i
  let p := h.txPort i
  let space := h.spaced i
  if x.queued || x.active || space || (h.pq p).waiting.length ≥ 16 then
    let h1 := h.setTxe i { x with held := some t, spaced := space && !x.queued && !x.active }
    if x.active then h1.endWait p else h1
  else (h.setTxe i { x with queued := true, held := none, spaced := false }).enqueue p t

/-- The completion of a transaction that never ran: NOREPLY (R182, R193, R198). -/
def noReply : Nat := 3

/-- A trigger falls due at entry i (R182, R184, R193, R198); done completes an entry whose probe is absent with NOREPLY. -/
def Hub.dueWith (done : Nat → Hub → Hub) (h : Hub) (i : Nat) : Hub :=
  if !h.txOn i || !h.portOn h.pwr.state (h.txPort i) then h
  else if h.entryAbsent i then done i ((h.fedBy i).foldl (fun g s => g.missing s 1) h)
  else
    let x := h.txe i
    let h1 := { h with seq := h.seq + 1 }
    if x.held.isSome then h1.bump (txReg i 0x1C) 0 16 1 else h1.place i (h.txnOf i)

/-- Entry i completes with a code, which is a trigger of the entries chained to it (R181, R188). The first argument bounds how
many completions follow one another at once. (log 13: DESIGN CHOICE) -/
def Hub.endWith : Nat → Nat → Nat → Hub → Hub
  | 0, i, code, h => h.setTxe i { h.txe i with last := BitVec.ofNat 4 code }
  | f + 1, i, code, h =>
    let h1 := h.setTxe i { h.txe i with last := BitVec.ofNat 4 code }
    let next := (List.range 128).filter (fun k =>
      h1.txOn k && h1.trig k == 3 && h1.fld (txReg k 8) 8 7 == i && (code == 0 || h1.bit (txReg k 8) 7))
    next.foldl (fun g k => g.dueWith (fun k g => Hub.endWith f k noReply g) k) h1

/-- A trigger falls due at entry i. (log 13: DESIGN CHOICE) -/
def Hub.fallDue (h : Hub) (i : Nat) : Hub := h.dueWith (fun k g => Hub.endWith 128 k noReply g) i

/-- Entry i completes with a code. (log 13: DESIGN CHOICE) -/
def Hub.complete (h : Hub) (i code : Nat) : Hub := Hub.endWith 128 i code h

/-- A trigger of a kind other than TRIG is discarded and counts in REJ (R181, R186). -/
def Hub.triggered (h : Hub) (i kind : Nat) : Hub :=
  if h.trig i = kind then h.fallDue i else if h.txOn i then h.bump (txReg i 0x1C) 16 16 1 else h

/-- The next due instant of a TIME trigger from an arming instant (R185). -/
def firstDue (arm per phase : Nat) : Nat :=
  let r := (arm + per * 2 ^ 33 - phase % per) % per
  (if r = 0 then arm else arm + per - r) % 2 ^ 32

/-- Entry i armed at the present TS (R185). -/
def Hub.armTime (h : Hub) (i : Nat) : Hub :=
  if h.txOn i ∧ h.trig i = 0 then
    h.setTxe i { h.txe i with
      due := some (BitVec.ofNat 32 (firstDue h.ts.toNat (h.reg (txReg i 0xC)).toNat (h.reg (txReg i 0x10)).toNat)) }
  else h.setTxe i { h.txe i with due := none }

/-- The due instant of entry i has come: TS is at or after it over a half range (R185). -/
def Hub.dueNow (h : Hub) (i : Nat) : Bool := h.txOn i && h.trig i == 0 && (h.txe i).due.any (fun d => !before h.ts d)

/-- TIME_TRIGGER_DUE: the entry's due instant has come; the next is PERIOD later (R185). Before it has, nothing falls due. -/
def Hub.timeDue (h : Hub) (i : Nat) : Hub :=
  if !h.dueNow i then h else
  let x := h.txe i
  let h1 := h.setTxe i { x with due := x.due.map (fun d => d + BitVec.ofNat 32 (h.reg (txReg i 0xC)).toNat) }
  h1.fallDue i

def execTimeTriggerDue (i : Nat) (s : State) : Host.Outcome State Fault Refusal :=
  s.run (fun h => if i < 128 then h.timeDue i else h)

/-- TX_KICK: a trigger whatever TRIG is, never counted in REJ (R188). -/
def execTxKick (i : Nat) (s : State) : Host.Outcome State Fault Refusal :=
  s.run (fun h => if i < 128 then h.fallDue i else h)

/-- BANK_M_SPACING_END: a trigger held by the spacing of R192 alone enters the queue. -/
def Hub.spacingEnd (h : Hub) (i : Nat) : Hub :=
  let x := h.txe i
  match x.held with
  | none => h
  | some t => if x.spaced && !h.spaced i then (h.setTxe i { x with held := none, spaced := false }).place i t else h

def execBankMSpacingEnd (i : Nat) (s : State) : Host.Outcome State Fault Refusal :=
  s.run (fun h => if i < 128 then h.spacingEnd i else h)

/-- The checks of R182 on an entry, given its words as they would stand: whether they pass. -/
def entryOk (i : Nat) (port trig : Word) : Bool :=
  !(bits port 4 1 = 0 && bits port 0 4 = 0 && bits port 8 3 = 0) && !(bits port 4 1 = 1 && bits port 0 4 > 7)
    && !(bits port 4 1 = 1 && bits trig 24 8 > 1) && !(bits trig 0 2 = 3 && bits trig 8 7 = i)

/-- EN of an entry written 1: checked, and armed (R182, R185). SH values not committed are not part of the check. Written 0: the queued transaction
is withdrawn and completes with NOREPLY, but a trigger that fell due in the same cycle is discarded (R182). -/
def Hub.txEnable (h : Hub) (i : Nat) (en : Bool) : Hub :=
  if en then
    if h.txOn i then h
    else if entryOk i (h.reg (txReg i 4)) (h.reg (txReg i 8)) then (h.setBit (txReg i 0) 0 true).armTime i
    else h.flag schErr 0 i
  else if !h.txOn i then h
  else
    let h1 := h.setBit (txReg i 0) 0 false
    let x := h1.txe i
    let p := h1.txPort i
    let mine (t : Txn) : Bool := t.src = .entry i
    let gone := (h1.pq p).waiting.any mine
    let late := (h1.pq p).waiting.any (fun t => mine t && t.at_ == h.now)
    let h2 := h1.setPq p { h1.pq p with waiting := (h1.pq p).waiting.filter (fun t => !mine t) }
    let h3 := h2.setTxe i { x with held := none, spaced := false, queued := if gone then false else x.queued, due := none }
    if gone && !late then h3.complete i noReply else h3

def execTxEnable (i : Nat) (en : Bool) (s : State) : Host.Outcome State Fault Refusal :=
  s.run (fun h => if i < 128 then h.txEnable i en else h)

/-- SCH_COMMIT: every enabled entry is checked with its pending values; the commit waits for the next epoch (R183). -/
def Hub.schCommit (h : Hub) : Hub :=
  match (List.range 128).find? (fun i => h.txOn i && !entryOk i (h.seen (txReg i 4)) (h.seen (txReg i 8))) with
  | some i => ({ (h.discard 0x90000 0x1000) with schPend := false }).flag schErr 2 i
  | none => { (h.capture 0x90000 0x1000) with schPend := true }

def execSchCommit (s : State) : Host.Outcome State Fault Refusal := s.run Hub.schCommit

/-- The commit acts at the first tick of a schedule epoch: TIME entries whose PERIOD or PHASE change are armed anew, and the
change closes the open record of each stream the entry feeds (R183). A trigger that fell due before the boundary tick keeps the old values. (log 113: DEDUCED) -/
def Hub.schApply (h : Hub) : Hub :=
  if !h.schPend then h else
  let h := ((List.range 128).filter (fun i => (h.txe i).due.any (fun d => before d h.ts))).foldl (fun g i => g.timeDue i) h
  let changed (i off : Nat) : Bool := match tget h.capt (txReg i off) with
    | none => false
    | some v => v != h.reg (txReg i off)
  let arm := (List.range 128).filter (fun i => changed i 0xC || changed i 0x10)
  let h1 := { (h.apply 0x90000 0x1000) with schPend := false }
  let h2 := arm.foldl (fun g i => g.armTime i) h1
  arm.foldl (fun g i => (g.fedBy i).foldl (fun k s => k.closeAt s) g) h2

/-! ### Registers -/

/-- What a fabric read of a transaction entry gives (R181). -/
def Hub.txRead (h : Hub) (i off : Nat) : Word :=
  if off = 0x18 then BitVec.ofNat 32 (h.txState i + (h.txe i).last.toNat * 16) else h.seen (txReg i off)

/-- A fabric write to a transaction entry (R181, R182). PERIOD and the two-wire REF have their own ranges. (log 119: DEDUCED) -/
def Hub.txWrite (h : Hub) (i off : Nat) (v : Word) : Hub :=
  if off = 0 then
    let h1 := h.txEnable i (v.getLsbD 0)
    if v.getLsbD 1 then h1.fallDue i else h1
  else
    let tw := h.bit (txReg i 4) 4
    let ok (f : Fld) (n : Nat) : Bool :=
      match off with
      | 0x04 => f.lsb ≠ 0 || !v.getLsbD 4 || n ≤ 7
      | 0x08 => (f.lsb ≠ 8 || n ≠ i) && (f.lsb ≠ 24 || !tw || n ≤ 1)
      | _ => true
    h.putReg schErr i (txReg i off) (h.txOn i) ok v

end Sys2Proof.Machine
end

