-- ==== Sys2Proof/Machine/Angle.lean ====
section
/-! DEFINITION. Crank angle and track distance (R89 to R111, R440): filtered pin edges, the tooth decoder, DIST domains, the Angle
Schedule Table and the trigger outputs. -/

namespace Sys2Proof.Machine

/-- ANG_ERR (R111). -/
def angErr : ErrReg := ⟨0x301FC, 2, 0, 0⟩

/-- The angle unit set. -/
def Hub.setAng (h : Hub) (a : Angle) : Hub := { h with ang := a }

/-- Address of a schedule entry's word, and the entry's own state. -/
def aseReg (i off : Nat) : Nat := 0x38000 + 16 * i + off
def Hub.ase (h : Hub) (i : Nat) : Ase := tval Ase.init h.ang.ase i
def Hub.setAse (h : Hub) (i : Nat) (x : Ase) : Hub := h.setAng { h.ang with ase := tset Ase.init h.ang.ase i x }

/-- Entries that are armed or about to be, ascending. -/
def Hub.armedAses (h : Hub) : List Nat := (h.ang.ase.filter (fun e => e.2.armed)).map (fun e => e.1)

/-- Domain of a schedule entry, and its position in 2^-16 of the domain's unit. -/
def Hub.aseDom (h : Hub) (i : Nat) : Nat := h.fld (aseReg i 4) 0 3
def Hub.asePos (h : Hub) (i : Nat) : Nat := (h.reg (aseReg i 0)).toNat * 65536

/-! ### Loss and gain of synchronisation -/

/-- A window was opened in a domain. -/
def inDomain (dom : Nat) (w : Option Window) : Bool :=
  match w with
  | none => false
  | some x => x.open_.dom == dom

/-- Windows of a domain that stops being synchronised are abandoned (R208). -/
def Hub.abandonOf (h : Hub) (dom r : Nat) (x : Recog) : Hub :=
  let n := (inDomain dom x.opened).toNat + (inDomain dom x.settling).toNat
  let y : Recog := { x with opened := if inDomain dom x.opened then none else x.opened,
                            settling := if inDomain dom x.settling then none else x.settling }
  if n = 0 then h else { (h.bump (0x7003C + 0x80 * r) 24 8 n) with recs := tset Recog.init h.recs r y }

def Hub.abandonWindows (h : Hub) (dom : Nat) : Hub := h.recs.foldl (fun g e => g.abandonOf dom e.1 e.2) h

/-- Grid streams of a domain, by SID. -/
def Hub.gridSids (h : Hub) (dom : Nat) : List Nat := h.liveSids.filter (fun s => h.rsmpEn s && h.domain s == dom)

/-- A stream's open record closes, and its next record carries GAP unless it has formed none (R142). -/
def Hub.gapNext (h : Hub) (sid : Nat) : Hub :=
  let h1 := h.formRecord sid
  let x := h1.strm sid
  if x.fresh then h1 else h1.setStrm sid { x with gap := true }

/-- The armed entries of a domain change, while AST_CTRL.EN lets entries change at all (R106). -/
def Hub.changeAses (h : Hub) (dom : Nat) (f : Nat → Ase → Ase) : Hub :=
  if !h.bit 0x30100 0 then h else
  h.armedAses.foldl (fun g i => if g.aseDom i = dom then g.setAse i (f i (g.ase i)) else g) h

/-- A domain stops being synchronised: schedule entries are suspended, windows abandoned, lattices stop, and a resampler that then passes nothing takes
its pending commit (R104, R142, R148, R208). -/
def Hub.domainLost (h : Hub) (dom : Nat) : Hub :=
  let h1 := (h.abandonWindows dom).changeAses dom (fun _ x => { x with susp := true })
  (h1.gridSids dom).foldl (fun g s =>
    let n := g.rsmp s
    let g1 := (g.bump (rsmReg n 0x10) 16 16 1).missing s 1
    let g2 := g1.setRsl n { g1.rsl n with next := none, loss := 0, lost := true, laps := [] }
    let g3 := g2.gapNext s
    if (g3.rsl n).pending && g3.fld (rsmReg n 4) 8 8 == 0 then g3.rsApply n none else g3) h1

/-- A domain becomes synchronised at a position: its suspended entries are judged (R104) and lattices begin (R143). (log 39: DEDUCED) -/
def Hub.domainGained (h : Hub) (dom pos : Nat) : Hub :=
  let h1 := h.changeAses dom (fun i x => { x with susp := false, fired := false, defer := decide (h.asePos i ≤ pos) })
  let h2 := h1.setAng { h1.ang with lastPos := tput h1.ang.lastPos dom pos }
  (h2.gridSids dom).foldl (fun g s =>
    let n := g.rsmp s
    let x := g.rsl n
    let g1 := g.setRsl n { x with next := some (latticeFrom (g.reg (rsmReg n 0)) (cycleOf dom / 65536) ((pos + 65535) / 65536)),
                                  lost := false, loss := 0, laps := [] }
    if x.lost then g1.gapNext s else g1.formRecord s) h2

/-! ### Crank decoder (R91 to R97) -/

/-- CRK_STATUS.STATE as a number. -/
def CrankState.code : CrankState → Nat
  | .search => 0
  | .gapFound => 1
  | .sync360 => 2
  | .sync720 => 3
  | .lost => 4

/-- Teeth of the wheel, missing teeth, whether the mark is an extra tooth, and edges from one mark to the next (R92, R93). -/
def Hub.teeth (h : Hub) : Nat := h.fld 0x30044 0 8 + 1
def Hub.missingTeeth (h : Hub) : Nat := h.fld 0x30044 8 2
def Hub.extraTooth (h : Hub) : Bool := h.bit 0x30044 10
def Hub.perMark (h : Hub) : Nat := if h.extraTooth then h.teeth + 1 else h.teeth - h.missingTeeth

/-- Angle of one regular span in 2^-16 of 1/64 degree. -/
def Hub.toothSpan (h : Hub) : Nat := 23040 / h.teeth * 65536

/-- A prediction from the last two periods, clamped (R96), in 2^-40 ns; the last period alone where there is no other. (log 126: DESIGN CHOICE) -/
def predict (per : Nat) (prev : Option Nat) : Nat :=
  match prev with
  | none => per
  | some p =>
    let t : Int := 2 * (per : Int) - p
    if 2 * t < per then per / 2 else if t > 2 * per then 2 * per else t.toNat

/-- A change of crank state, posting SYNC (R93). A synchronised run that ends is kept with the runs before it (R97). -/
def Hub.crankTo (h : Hub) (st : CrankState) (loss : Nat) : Hub :=
  let c := h.ang.crank
  let was := h.synced 1
  let c1 := { c with state := st, prev := c.state, camHalf := none, seen0 := false, seen1 := false, bad := 0 }
  let c2 := match st with
    | .lost => { c1 with loss := BitVec.ofNat 4 loss }
    | .search => { c1 with regular := 0, count := 0, extra := false }
    | _ => c1
  let h1 := h.setCrank c2
  let h2 := if st = .lost then h1.bump 0x3006C 0 8 1 else h1
  let now := h2.synced 1
  let h3 := if was && !now then
      let c3 := h2.ang.crank
      (h2.setCrank { c3 with olds := { c3.run with stop := some h2.instant } :: keepCourses c3.edges c3.olds, run := Course.init }).domainLost 1
    else if st = .search || st = .lost || st = .gapFound then h2.setCrank { h2.ang.crank with run := Course.init }
    else h2
  h3.sysRecord 0x0D 0 (BitVec.ofNat 40 (st.code + c.state.code * 16))

/-- The predicted span after a mark at which the next edge is the gap's end, or a regular one (R96). -/
def Hub.nextSpan (h : Hub) (count : Nat) : Option Nat × Nat :=
  let k := if !h.extraTooth && count + 1 = h.perMark then h.missingTeeth else 0
  (h.ang.crank.pred.map (fun p => p * (k + 1)), h.toothSpan * (k + 1))

/-- A run begins at a mark (R93, R143). -/
def Hub.beginRun (h : Hub) (t : Instant) (pos : Nat) (synced : Bool) : Hub :=
  let (sp, d) := h.nextSpan 0
  let c := h.ang.crank
  h.setCrank { c with run := { marks := [{ t := t, p := pos * 65536, n := c.edges - 1 }], start := if synced then some t else none, stop := none,
                               span := sp, dth := d, zeros := [] } }

/-- A regular edge or the end of a gap is added to the run (R97). -/
def Hub.addMark (h : Hub) (t : Instant) (adv : Nat) : Hub :=
  let c := h.ang.crank
  let p := ((c.run.marks.head?).map (fun m => m.p)).getD 0
  let (sp, d) := h.nextSpan c.count
  h.setCrank { c with run := { c.run with marks := keep 8192 ({ t := t, p := (p + adv) % cycleOf 1, n := c.edges - 1 } :: c.run.marks), span := sp, dth := d } }

/-- Position p lies in (a, b] going upward round the cycle. -/
def passes (cyc a b p : Nat) : Bool :=
  let d := posSub cyc b a
  let e := posSub cyc p a
  decide (0 < e ∧ e ≤ d)

/-- The windows a step from position a to b ends are judged (R94 CAM): how the decoder stands after, and whether it is lost. (log 29: DEDUCED) -/
def Hub.judgeCam (h : Hub) (a b : Nat) : Hub × Bool :=
  let stop := h.fld 0x3004C 16 16
  let want := h.fld 0x30048 20 1
  let one (r : Hub × Bool) (half : Nat) : Hub × Bool :=
    if r.2 || !passes (cycleOf 1) a b ((stop + 23040 * half) % 46080 * 65536) then r else
    let g := r.1
    let c := g.ang.crank
    let seen := if half = 0 then c.seen0 else c.seen1
    let wrong := seen != (half == want)
    let c1 := if half = 0 then { c with seen0 := false } else { c with seen1 := false }
    if !wrong then (g.setCrank (if half = want then { c1 with bad := 0 } else c1), false)
    else
      let g1 := (g.setCrank { c1 with bad := c1.bad + 1 }).bump 0x3006C 16 8 1
      if c1.bad + 1 ≥ 2 then (g1.crankTo .lost 3, true) else (g1, false)
  [0, 1].foldl one (h, false)

/-- The cam edge that told the half of a run, at revolution angle w, still counts in the window of its half once the mark at revolution angle r has
come: the window has not closed between them (R94). (log 29: DEDUCED) -/
def Hub.camCounts (h : Hub) (w r half : Nat) : Bool :=
  let a := w + 23040 * half
  !passes 46080 a (a + posSub 23040 r w) (h.fld 0x3004C 16 16 + 23040 * half)

/-- An edge the decoder takes as a regular edge, the end of a gap, or the completion of an extra tooth's span: mark tells the
last two (R92 to R94, R96). CRK_PERIOD is in whole ns, and with CAM_EN 0 the mark that leads to SYNC360 takes REF_ANGLE. (log 29: DEDUCED) (log 126: DESIGN CHOICE) (log 130: DEDUCED) -/
def Hub.toothEdge (h : Hub) (t : Instant) (mark : Bool) (per : Nat) : Hub :=
  let c0 := h.ang.crank
  let prd := predict per c0.per
  let c1 := { c0 with perPrev := c0.per, per := some per, pred := some prd, period := BitVec.ofNat 32 (per / 2 ^ 40), last := some t,
                        edges := c0.edges + 1 }
  let cnt := c1.count
  let full := decide (cnt = h.perMark)
  let zero (k : Crank) : Crank := { k with count := 0 }
  match c1.state with
  | .search =>
    if mark then
      let h1 := h.setCrank (zero c1)
      if c1.regular ≥ 3 then h1.crankTo .gapFound 0 else h1
    else h.setCrank { c1 with regular := c1.regular + 1 }
  | .gapFound =>
    if !mark then h.setCrank c1
    else if full then
      let ref := h.fld 0x30048 0 16
      let h1 := h.setCrank (zero c1)
      let h2 := h1.crankTo .sync360 0
      let open_ := !h.bit 0x30048 16
      let h3 := h2.beginRun t ref open_
      if open_ then h3.domainGained 1 (ref * 65536) else h3
    else ((h.setCrank (zero c1)).bump 0x3006C 8 8 1).crankTo .search 0
  | .lost => h.setCrank c1
  | st =>
    let early := h.extraTooth && !mark && decide (cnt + 1 = h.perMark)
    if mark != full || early then
      let h1 := h.setCrank c1
      (if mark then h1.bump 0x3006C 8 8 1 else h1).crankTo .lost 2
    else
      match (if mark && st = .sync360 then c1.camHalf else none) with
      | some half =>
        let pos := h.fld 0x30048 0 16 + 23040 * half
        let want := h.fld 0x30048 20 1
        let still := h.camCounts c1.camAt (h.fld 0x30048 0 16) want
        let h0 := (h.setCrank (zero c1)).crankTo .sync720 0
        let h1 := h0.setCrank { h0.ang.crank with seen0 := still && want == 0, seen1 := still && want == 1 }
        (h1.beginRun t pos true).domainGained 1 (pos * 65536)
      | none =>
        let h1 := h.setCrank (if mark then zero c1 else c1)
        let gap := mark && !h.extraTooth
        let a := ((c1.run.marks.head?).map (fun m => m.p)).getD 0
        let adv := h.toothSpan * (if gap then h.missingTeeth + 1 else 1)
        let h2 := h1.addMark t adv
        if st = .sync720 then (h2.judgeCam a ((a + adv) % cycleOf 1)).1 else h2

/-- A forward tooth edge (R92 to R96). In LOST it leads to SEARCH; the first edge of a search only starts a period. A period that
spans a gap is divided in 2^-40 ns, truncated. (log 28: DEDUCED) (log 126: DESIGN CHOICE) -/
def Hub.forwardTooth (h : Hub) (t : Instant) : Hub :=
  let c := { h.ang.crank with reverse := false, lastAt := h.now }
  let h0 := h.setCrank c
  if c.state = .lost then
    let h1 := h0.crankTo .search 0
    h1.setCrank { h1.ang.crank with last := some t, per := none, perPrev := none, pred := none, edges := c.edges + 1 }
  else
  match c.last with
  | none => h0.setCrank { c with last := some t, edges := c.edges + 1 }
  | some l =>
    let T := (t - l).toNat
    let c1 := { c with count := c.count + 1 }
    let h1 := h0.setCrank c1
    let k := h.missingTeeth
    if c.extra then (h1.setCrank { c1 with extra := false }).toothEdge t true T
    else match c.pred with
      | none => h1.toothEdge t false T
      | some p =>
        if h.extraTooth && decide (4 * T < 3 * p) then
          let h2 := h1.setCrank { c1 with extra := true }
          if (c.state = .sync360 || c.state = .sync720) && decide (c1.count + 1 ≠ h.perMark) then
            (h2.bump 0x3006C 8 8 1).crankTo .lost 2
          else h2
        else if !h.extraTooth && decide (2 * T ≥ (2 * k + 1) * p) then h1.toothEdge t true (T / (k + 1))
        else h1.toothEdge t false T

/-- A reverse tooth (R94, R95). -/
def Hub.reverseTooth (h : Hub) : Hub :=
  let h1 := (h.setCrank { h.ang.crank with reverse := true, lastAt := h.now, last := none, per := none, perPrev := none,
                                           pred := none }).bump 0x3006C 24 8 1
  match h1.ang.crank.state with
  | .sync360 => h1.crankTo .lost 4
  | .sync720 => h1.crankTo .lost 4
  | .gapFound => h1.crankTo .search 0
  | _ => h1

/-- A level change on the tooth pin (R91, R94, R95): in width mode the end of a pulse tells a reverse tooth, and a forward edge
that leads back from LOST is held until then. (log 30: DEDUCED) -/
def Hub.toothPin (h : Hub) (t : Instant) (level active : Bool) : Hub :=
  let mode := h.fld 0x30048 22 2
  let c := h.ang.crank
  if mode = 1 && !level && (match c.rise with
      | none => false
      | some r => decide ((t - r).toNat ≥ h.fld 0x30050 0 16 * (h.tinc.toNat * 256))) then
    (h.setCrank { c with rise := none, held := none }).reverseTooth
  else
    let h1 := h.setCrank { c with rise := if level then some t else none, held := none }
    let h2 := match c.held with
      | some x => if level then h1 else h1.forwardTooth x
      | none => h1
    if !active then h2
    else if mode = 2 && h2.ang.angLevel.getLsbD (h2.fld 0x30048 24 3) then h2.reverseTooth
    else if mode = 1 && level && (c.state = .lost || c.reverse) then h2.setCrank { h2.ang.crank with held := some t }
    else h2.forwardTooth t

/-- Revolution angle w lies in the cam window, which may span the reference point (R91). The window holds WIN_START and not WIN_END, and with both equal
it holds nothing. (log 124: DESIGN CHOICE) -/
def Hub.inCamWindow (h : Hub) (w : Nat) : Bool :=
  let a := h.fld 0x3004C 0 16
  let b := h.fld 0x3004C 16 16
  decide ((w + 23040 - a) % 23040 < (b + 23040 - a) % 23040)

/-- An active cam edge (R93, R94). (log 29: DEDUCED) -/
def Hub.camEdge (h : Hub) (t : Instant) : Hub :=
  let c := h.ang.crank
  let loose : Course := { c.run with start := (c.run.marks.getLast?).map (fun m => m.t) }
  match loose.at_ (cycleOf 1) t with
  | none => h
  | some (x, _) =>
    let a := (roundPos (cycleOf 1) x).toNat
    let w := a % 23040
    if !h.inCamWindow w then h else
    match c.state with
    | .sync720 => h.setCrank (if a < 23040 then { c with seen0 := true } else { c with seen1 := true })
    | .sync360 =>
      match c.camHalf with
      | some _ =>
        if c.camRead = a / 23040 then h
        else (h.setCrank { c with camHalf := none }).bump 0x3006C 16 8 1
      | none =>
        let half := h.fld 0x30048 20 1
        h.setCrank { c with camHalf := some (if w < h.fld 0x30048 0 16 then half else 1 - half), camRead := a / 23040, camAt := w }
    | _ => h

/-- CRANK_STALL (R93, R94): the predictor starts again. (log 28: DEDUCED) -/
def Hub.crankStall (h : Hub) : Hub :=
  let h1 := match h.ang.crank.state with
    | .sync360 => h.crankTo .lost 1
    | .sync720 => h.crankTo .lost 1
    | .gapFound => h.crankTo .search 0
    | _ => h
  h1.setCrank { h1.ang.crank with last := none, per := none, perPrev := none, pred := none, extra := false, lastAt := h1.now }

def execCrankStall (s : State) : Host.Outcome State Fault Refusal := s.run Hub.crankStall

/-- CRK_CTRL.EN (R91, R93). Written 0 it clears REVERSE too. (log 43: DEDUCED) (log 125: DESIGN CHOICE) -/
def Hub.crkEnable (h : Hub) (en : Bool) : Hub :=
  if en then h.setBit 0x30040 0 true
  else
    let h1 := h.setBit 0x30040 0 false
    let h2 := if h1.ang.crank.state = .search then h1 else h1.crankTo .search 0
    h2.setCrank { h2.ang.crank with last := none, per := none, perPrev := none, pred := none, reverse := false, held := none, rise := none }

def execCrkEnable (en : Bool) (s : State) : Host.Outcome State Fault Refusal := s.run (fun h => h.crkEnable en)

/-- CRK_CTRL.RESYNC: to LOST with cause SOFTWARE; no effect in SEARCH or GAPFOUND (R91, R94), nor in LOST. -/
def Hub.crkResync (h : Hub) : Hub :=
  match h.ang.crank.state with
  | .sync360 => h.crankTo .lost 5
  | .sync720 => h.crankTo .lost 5
  | _ => h

def execCrkResync (s : State) : Host.Outcome State Fault Refusal := s.run Hub.crkResync

/-! ### DIST domains (R99 to R101) -/

/-- Address of a DIST register. -/
def dstReg (d off : Nat) : Nat := 0x30080 + 0x20 * d + off

/-- A change of a DIST state posts SYNC (R101). -/
def Hub.distRecord (h : Hub) (d new old : Nat) : Hub := h.sysRecord 0x0D (d + 1) (BitVec.ofNat 40 (new + old * 16))

/-- A DIST domain returns to SEARCH (R101). -/
def Hub.distSearch (h : Hub) (d : Nat) : Hub :=
  let x := h.dist d
  if !x.track then h else
  let h1 := h.setDist d { x with track := false, olds := { x.run with stop := some h.instant } :: keepCourses x.edges x.olds,
                                 run := { x.run with start := none, stop := none, zeros := [] } }
  (h1.domainLost (d + 2)).distRecord d 0 5

/-- A wheel pulse (R100). -/
def Hub.wheelPulse (h : Hub) (d : Nat) (t : Instant) : Hub :=
  let x := h.dist d
  let step := h.fld (dstReg d 8) 0 32
  let m := cycleOf 2
  let per := x.last.map (fun l => (t - l).toNat)
  let prd := per.map (fun p => predict p x.per)
  let c := (x.ctr + step) % m
  let early := x.run.marks.head?.any (fun k => (x.run.zeros.head?.map (fun z => z.1)).orElse (fun _ => x.run.start) |>.any (fun z => before k.t z))
  h.setDist d { x with ctr := c, last := some t, perPrev := x.per, per := per, pred := prd, lastAt := h.now,
                       edges := x.edges + 1, wrapped := x.wrapped || decide (x.ctr + step ≥ (if early then 2 * m else m)),
                       run := { x.run with marks := keep 8192 ({ t := t, p := c, n := x.edges } :: x.run.marks), span := prd, dth := step } }

/-- The position a DIST domain has at an instant, in SEARCH as in TRACK. -/
def Dist.countAt (x : Dist) (t : Instant) : Nat :=
  let loose : Course := { x.run with start := (x.run.marks.getLast?).map (fun m => m.t), zeros := [] }
  ((loose.at_ (cycleOf 2) t).map (fun r => r.1)).getD x.ctr

/-- A domain is zeroed at an instant: its position there becomes 0, its cycle ends, and entries not yet fired do not fire in it; lattice points the lap
has reached are still formed (R101, R104, R137). (log 33: DEDUCED) -/
def Hub.distZero (h : Hub) (d : Nat) (t : Instant) : Hub :=
  let x := h.dist d
  let m := cycleOf 2
  let off := x.countAt t
  let shifted := x.run.marks.map (fun k => { k with p := posSub m k.p off })
  let run := { x.run with marks := shifted, zeros := if x.track then (t, off) :: x.run.zeros else [],
                          start := if x.track then x.run.start else some t }
  let h1 := h.setDist d { x with ctr := posSub m x.ctr off, wrapped := false, run := run, track := true, zeroDue := false }
  let h2 := h1.changeAses (d + 2) (fun _ x => { x with defer := false, fired := false })
  let h3 := h2.setAng { h2.ang with lastPos := tput h2.ang.lastPos (d + 2) 0 }
  if x.track then
    (h3.gridSids (d + 2)).foldl (fun g s =>
      let n := g.rsmp s
      (g.setRsl n { g.rsl n with laps := (g.rsl n).laps ++ [off] }).endLaps s n) h3
  else (h3.domainGained (d + 2) 0).distRecord d 5 0

/-- A beacon edge on the input with the given code (R101). (log 33: DEDUCED) -/
def Hub.beacon (h : Hub) (d : Nat) (t : Instant) : Hub :=
  let x := h.dist d
  if x.track && !x.wrapped && decide (x.countAt t < h.fld (dstReg d 0xC) 0 16 * 65536) then h.bump (dstReg d 0x18) 0 16 1
  else
    let h1 := h.setDist d { x with laps := x.laps + 1 }
    (h1.sysAt 0x0C d (x.laps + 1) t 0).distZero d t

/-- DIST domains that count: enabled, and not in HOLLOW or BASIN (R101). -/
def Hub.distsOn (h : Hub) : List Nat := if h.pwr.state ≥ 3 then [] else (List.range 4).filter (fun d => h.bit (dstReg d 0) 0)

/-- DIST_STALL: the predictor starts again from the next two pulses and the position holds (R100). -/
def Hub.distStall (h : Hub) (d : Nat) : Hub :=
  let x := h.dist d
  h.setDist d { x with last := none, per := none, perPrev := none, pred := none, lastAt := h.now, run := { x.run with span := none } }

def execDistStall (d : Nat) (s : State) : Host.Outcome State Fault Refusal :=
  s.run (fun h => if d < 4 then h.distStall d else h)

/-- DST_CTRL.EN (R99, R101). Written 0, a ZERO that waits for its tick goes too. (log 127: DEDUCED) -/
def Hub.dstEnable (h : Hub) (d : Nat) (en : Bool) : Hub :=
  if en then h.setBit (dstReg d 0) 0 true
  else
    let g := h.setBit (dstReg d 0) 0 false
    (if (g.dist d).zeroDue then g.setDist d { g.dist d with zeroDue := false } else g).distSearch d

def execDstEnable (d : Nat) (en : Bool) (s : State) : Host.Outcome State Fault Refusal :=
  s.run (fun h => if d < 4 then h.dstEnable d en else h)

/-- DST_CTRL.ZERO: at the next TIME tick, without LAP (R99). It has no effect on a domain with EN 0, nor in HOLLOW or BASIN, where a domain stays in
SEARCH (R101). (log 127: DEDUCED) -/
def Hub.dstZero (h : Hub) (d : Nat) : Hub :=
  if h.bit (dstReg d 0) 0 && decide (h.pwr.state < 3) then h.setDist d { h.dist d with zeroDue := true } else h

def execDstZero (d : Nat) (s : State) : Host.Outcome State Fault Refusal :=
  s.run (fun h => if d < 4 then h.dstZero d else h)

/-! ### Pin edges (R83, R89, R90, R187) -/

/-- The instant of a pin capture: A - c x TINC/16 - t_in - F x TINC (R83). (log 18: DEDUCED) -/
def Hub.pinInstant (h : Hub) (pin : Nat) (code : BitVec 4) (filt : Nat) : Instant :=
  let tk := h.tinc.toNat
  h.instant - BitVec.ofNat 72 (code.toNat * tk * 16) - inst256 (Config.pinDelay pin h.age.temp).toNat - BitVec.ofNat 72 (filt * tk * 256)

/-- A level change is an active edge under an EDGE code: 0 rising, 1 falling, 2 both (R89). -/
def activeEdge (sel : Nat) (level : Bool) : Bool :=
  match sel with
  | 0 => level
  | 1 => !level
  | _ => true

/-- An active edge goes to a TRGPIN or ANGPIN stream (R65). (log 32: DEDUCED) -/
def Hub.pinSample (h : Hub) (kind pin : Nat) (t : Instant) (level : Bool) : Hub :=
  (h.liveSids.filter (fun s => h.kind s == kind && h.srcIndex s == pin)).foldl (fun g s =>
    let x := g.strm s
    let n := x.edges + 1
    let v : BitVec 64 := BitVec.ofNat 64 (level.toNat + n.toNat * 256)
    let smp : Sample := { instant := t, value := v, sat := false, kind := .pin, status := 0, period := none, pos := none, pass := false,
                          gap := false, fresh := false }
    let g1 := g.setStrm s { x with edges := n }
    if g1.forms s then { g1 with handoff := g1.handoff ++ [(s, smp)] } else g1) h

/-- DIST domains a beacon input zeroes. -/
def Hub.beaconAt (h : Hub) (input : Nat) (t : Instant) : Hub :=
  (h.distsOn.filter (fun d => h.bit (dstReg d 4) 8 && h.fld (dstReg d 4) 4 4 == input)).foldl (fun g d => g.beacon d t) h

/-- ANG_PIN_EDGE: a filtered level change on ANG_INn (R83, R89 to R96, R100, R101, R110). BASIN powers the inputs down. (log 32: DEDUCED) -/
def Hub.angEdge (h : Hub) (pin : Nat) (level : Bool) (code : BitVec 4) : Hub :=
  if h.pwr.state = 4 || h.ang.angLevel.getLsbD pin == level || h.deaf level then h else
  let cfg := 0x30000 + 4 * pin
  let t := h.pinInstant (8 + pin) code (h.fld cfg 0 8)
  let act := activeEdge (h.fld cfg 8 2) level
  let bit_ : BitVec 8 := BitVec.ofNat 8 (2 ^ pin)
  let h1 := h.setAng { h.ang with angLevel := if level then h.ang.angLevel ||| bit_ else h.ang.angLevel &&& ~~~ bit_ }
  let deep := h.pwr.state ≥ 3
  let on := h1.bit 0x30040 0 && !deep
  let h2 := if on && h1.fld 0x30044 12 3 == pin then h1.toothPin t level act else h1
  if !act then h2 else
  let h3 := h2.setBit 0x30020 (8 + pin) true
  let h4 := if on && h3.bit 0x30048 16 && h3.fld 0x30048 17 3 == pin then h3.camEdge t else h3
  let h5 := (h4.distsOn.filter (fun d => h4.fld (dstReg d 4) 0 3 == pin)).foldl (fun g d => g.wheelPulse d t) h4
  let h6 := h5.beaconAt (8 + pin) t
  let h7 := h6.pinSample 5 pin t level
  let h8 := h7.probes.foldl (fun g e =>
    if g.fld (prReg e.1 0) 1 3 == 3 && g.fld (prReg e.1 0) 4 6 == pin then g.setPrb e.1 { e.2 with seen := e.2.seen + 1 } else g) h7
  if h8.pwr.state = 3 && h8.bit 0x30180 pin then
    let lim := h8.fld 0x30180 16 16 * 64000000
    h8.setAng { h8.ang with wakeEdges := h8.now :: (h8.ang.wakeEdges.filter (fun a => h8.now ≤ a + lim)) }
  else h8

def execAngPinEdge (pin : Nat) (level : Bool) (code : BitVec 4) (s : State) : Host.Outcome State Fault Refusal :=
  s.run (fun h => if pin < 8 then h.angEdge pin level code else h)

/-- TRG_PIN_EDGE: a filtered level change on TRGn (R83, R187). (log 32: DEDUCED) -/
def Hub.trgEdge (h : Hub) (pin : Nat) (level : Bool) (code : BitVec 4) : Hub :=
  if h.pwr.state = 4 || h.ang.trgLevel.getLsbD pin == level || h.deaf level then h else
  let cfg := 0x9F100 + 4 * pin
  let t := h.pinInstant pin code (h.fld cfg 0 8)
  let bit_ : BitVec 8 := BitVec.ofNat 8 (2 ^ pin)
  let h1 := h.setAng { h.ang with trgLevel := if level then h.ang.trgLevel ||| bit_ else h.ang.trgLevel &&& ~~~ bit_ }
  if !activeEdge (h.fld cfg 8 2) level then h1 else
  let h2 := h1.setBit 0x9F120 (8 + pin) true
  let h3 := ((List.range 128).filter (fun i => h2.txOn i && h2.trig i == 2 && h2.fld (txReg i 8) 4 3 == pin)).foldl
    (fun g i => g.fallDue i) h2
  (h3.beaconAt pin t).pinSample 4 pin t level

def execTrgPinEdge (pin : Nat) (level : Bool) (code : BitVec 4) (s : State) : Host.Outcome State Fault Refusal :=
  s.run (fun h => if pin < 8 then h.trgEdge pin level code else h)

/-! ### The Angle Schedule Table (R102 to R108, R440) -/

/-- An entry judged against its domain's position: live above it, else deferred; suspended while not synchronised (R103, R104). -/
def Hub.judge (h : Hub) (i : Nat) (x : Ase) : Ase :=
  let dom := h.aseDom i
  if !h.synced dom then { x with susp := true, defer := false, fired := false }
  else
    let live := match h.exactNow dom with
      | none => false
      | some p => decide (h.asePos i > p)
    { x with susp := false, defer := !live, fired := false }

/-- An ASE_ACTION write's arming acts (R103). -/
def Hub.armAse (h : Hub) (i : Nat) : Hub :=
  let x := h.ase i
  if x.arming then h.setAse i (h.judge i { x with armed := true, arming := false, fires := 0 }) else h

/-- ASE_POS_WRITE disarms, and cancels an arming not yet carried out (R102, R103). -/
def Hub.asePosWrite (h : Hub) (i : Nat) (v : Word) : Hub :=
  (h.setReg (aseReg i 0) v).setAse i { h.ase i with armed := false, arming := false, susp := false, defer := false }

def execAsePosWrite (i : Nat) (val : Word) (s : State) : Host.Outcome State Fault Refusal :=
  s.run (fun h => if i < 1024 then h.asePosWrite i val else h)

/-- The checks of R103 on an ASE_ACTION value: whether they pass. -/
def Hub.actionOk (h : Hub) (i : Nat) (v : Word) : Bool :=
  let dom := bits v 0 3
  let act := bits v 4 3
  let tgt := bits v 8 8
  let pos := (h.reg (aseReg i 0)).toNat
  let par := (h.reg (aseReg i 8)).toNat
  let tgtOk := match act with
    | 0 => true
    | 4 => tgt < 8
    | 5 => tgt = 0
    | _ => tgt < 128
  let posOk := match dom with
    | 0 => true
    | 1 => pos ≤ 46079
    | _ => pos ≤ 65534
  dom ≤ 5 && act ≤ 5 && tgtOk && posOk && (act ≠ 4 || (1 ≤ par && par ≤ 65535))

/-- ASE_ACTION_WRITE: while disarmed, checked and armed at the next tick; ACT NONE leaves it disarmed (R103). While armed the
fields are locked (R102), but not once a DISARM_ALL waits for its tick: the write arms after it has acted (R440). -/
def Hub.aseActionWrite (h : Hub) (i : Nat) (v : Word) : Hub :=
  let x := h.ase i
  let m : Word := 0x4F3FFF77
  if x.armed && !h.ang.disarmAll then (if v &&& m = h.reg (aseReg i 4) then h else h.flag angErr 1 0)
  else if !h.actionOk i v then h.flag angErr 0 0
  else (h.setReg (aseReg i 4) (v &&& m)).setAse i { x with arming := bits v 4 3 != 0 }

def execAseActionWrite (i : Nat) (val : Word) (s : State) : Host.Outcome State Fault Refusal :=
  s.run (fun h => if i < 1024 then h.aseActionWrite i val else h)

/-- AST_CTRL.EN written 1: coming from 0, every armed entry is judged again (R440). -/
def Hub.astEnable (h : Hub) : Hub :=
  if h.bit 0x30100 0 then h
  else h.armedAses.foldl (fun g i => g.setAse i (g.judge i (g.ase i))) (h.setBit 0x30100 0 true)

def execAstEnable (s : State) : Host.Outcome State Fault Refusal := s.run Hub.astEnable

/-- DISARM_ALL: acts at the next tick on every entry armed, or whose arming write came before it (R440). -/
def Hub.disarmAll (h : Hub) : Hub :=
  let h1 := h.setAng { h.ang with disarmAll := true }
  h1.ang.ase.foldl (fun g e => if e.2.arming then g.setAse e.1 { e.2 with arming := false, armed := false } else g) h1

def execDisarmAll (s : State) : Host.Outcome State Fault Refusal := s.run Hub.disarmAll

/-- DISARM_ALL acts. -/
def Hub.disarmNow (h : Hub) : Hub :=
  if !h.ang.disarmAll then h
  else
    let h1 := h.armedAses.foldl (fun g i => g.setAse i { g.ase i with armed := false, susp := false, defer := false }) h
    h1.setAng { h1.ang with disarmAll := false }

/-- Every armed TIME entry is judged again, after a jump of TS (R108). -/
def Hub.rejudgeTime (h : Hub) : Hub :=
  h.armedAses.foldl (fun g i => if g.aseDom i = 0 then g.setAse i (g.judge i (g.ase i)) else g) h

/-- The action of an entry that fires at this tick (R105). -/
def Hub.aseActOf (h : Hub) (i : Nat) : AseAct :=
  let a := h.reg (aseReg i 4)
  let dom := bits a 0 3
  { entry := i, action := a, param := h.reg (aseReg i 8), target := (h.reg (aseReg i 0)).toNat, tick := h.tb.acc,
    pos := if dom = 0 then 0xFFFF else ((h.exactNow dom).map (fun x => roundPos (cycleOf dom) x)).getD 0xFFFF }

/-- An action passes to its target (R105, R186). -/
def Hub.passAct (h : Hub) (a : AseAct) : Hub :=
  let tgt := bits a.action 8 8
  let edge : WinEdge := { tick := a.tick, pos := a.target, dom := bits a.action 0 3 }
  match bits a.action 4 3 with
  | 1 => if h.acquired.contains tgt then h else { h.triggered tgt 1 with acquired := tgt :: h.acquired }
  | 2 => { h with winEdges := h.winEdges ++ [(tgt, true, edge)] }
  | 3 => { h with winEdges := h.winEdges ++ [(tgt, false, edge)] }
  | 5 =>
    let r := hubEvent 0x0E a.entry (a.param.setWidth 40) (accInstant a.tick) a.pos
    if a.action.getLsbD 21 then
      h.insert (bits a.action 16 5) { r with pay := eventPay 0x0E (bits a.action 24 4) a.entry (a.param.setWidth 40) }
    else { h with sysq := h.sysq ++ [r] }
  | _ => h

/-- A firing entry acts: a pulse starts 2 ticks on, and any other action passes to its target while fewer than 8 have passed in the tick, else it
waits for the next (R105). -/
def Hub.act (h : Hub) (i : Nat) : Hub :=
  let a := h.aseActOf i
  if bits a.action 4 3 = 4 then h.setAng { h.ang with pulses := h.ang.pulses ++ [(bits a.action 8 8, bits a.param 0 16, h.now + 512)] }
  else if h.ang.passed < 8 then (h.setAng { h.ang with passed := h.ang.passed + 1 }).passAct a
  else h.setAng { h.ang with acts := h.ang.acts ++ [a] }

/-- Actions that wait from earlier ticks pass, the oldest 8 of them (R105). -/
def Hub.passActs (h : Hub) : Hub :=
  let now := h.ang.acts.take 8
  now.foldl Hub.passAct (h.setAng { h.ang with passed := now.length, acts := h.ang.acts.drop 8 })

/-- ASE_FIRE: an armed entry whose domain reaches its position fires (R104, R105); one that an ASE_POS write has disarmed in the
firing tick still does (R103), and one whose domain has stopped being synchronised in that tick does not (R95). No entry fires in HOLLOW or BASIN, nor
with AST_CTRL.EN at 0 (R106, R107). -/
def Hub.aseFire (h : Hub) (i : Nat) : Hub :=
  let x := h.ase i
  let due := h.ang.firing.contains i
  let ok := !x.susp && h.synced (h.aseDom i) && (due || (x.armed && !x.defer))
  let h1 := h.setAng { h.ang with firing := h.ang.firing.erase i }
  if ok && h.bit 0x30100 0 && h.pwr.state < 3 then
    let y := { x with fired := true, fires := BitVec.ofNat 16 (satAdd 16 x.fires.toNat 1),
                      armed := x.armed && !(h.bit (aseReg i 4) 30) }
    (h1.setAse i y).act i
  else h1

def execAseFire (i : Nat) (s : State) : Host.Outcome State Fault Refusal :=
  s.run (fun h => if i < 1024 then h.aseFire i else h)

/-- A position b of a domain after a is no advance: the real-time angle stands one unit below an edge it has reached already (R97, R104). -/
def standsBack (dom a b : Nat) : Bool := dom != 0 && decide (cycleOf dom < 2 * posSub (cycleOf dom) b a)

/-- The entries that reach their position as a domain goes from a to b, ascending; at a return to zero DEFER clears first, and the
entries the ending cycle still held fire (R104). (log 31: DEDUCED) -/
def Hub.fireRange (h : Hub) (dom a b : Nat) : Hub × List Nat :=
  let mine := h.armedAses.filter (fun i => h.aseDom i == dom)
  let live (g : Hub) (i : Nat) : Bool := let x := g.ase i; !x.susp && !x.defer && !x.fired
  if b ≥ a then (h, mine.filter (fun i => live h i && decide (h.asePos i ≤ b)))
  else
    let ended := mine.filter (fun i => live h i)
    let h1 := mine.foldl (fun g i => g.setAse i { g.ase i with defer := false, fired := false }) h
    (h1, mine.filter (fun i => ended.contains i || decide (h1.asePos i ≤ b)))

/-- The tick's evaluation of every entry; with AST_CTRL.EN at 0 no entry fires and every entry keeps its state (R104 to R106). -/
def Hub.evaluateAses (h : Hub) : Hub :=
  if h.pwr.state ≥ 3 then h else
  let step (r : Hub × List Nat) (dom : Nat) : Hub × List Nat :=
    match r.1.exactNow dom with
    | none => r
    | some p =>
      let a := tval p r.1.ang.lastPos dom
      if standsBack dom a p then r else
      let (g, l) := if h.bit 0x30100 0 then r.1.fireRange dom a p else (r.1, [])
      (g.setAng { g.ang with lastPos := tput g.ang.lastPos dom p }, r.2 ++ l)
  let (h1, l) := (List.range 6).foldl step (h, [])
  h1.setAng { h1.ang with firing := (List.range 1024).filter (fun i => l.contains i) }

/-! ### Trigger outputs (R105, R109) -/

/-- TOUT_PULSE_START: a pulse that has fired starts on its pin; a pin driven already stays active to the later end. With EN at 0 a
pulse has no effect. -/
def Hub.pulseStart (h : Hub) (pin : Nat) : Hub :=
  match h.ang.pulses.find? (fun p => p.1 == pin) with
  | none => h
  | some p =>
    let h1 := h.setAng { h.ang with pulses := h.ang.pulses.erase p }
    if h1.bit (0x30140 + 4 * pin) 0 then
      let stop := max (tval 0 h1.ang.tout pin) (h1.now + p.2.1 * 256)
      h1.setAng { h1.ang with tout := tput h1.ang.tout pin stop }
    else h1

def execToutPulseStart (pin : Nat) (s : State) : Host.Outcome State Fault Refusal :=
  s.run (fun h => if pin < 8 then h.pulseStart pin else h)

/-- TOUT_PULSE_END: the pin returns to inactive. -/
def execToutPulseEnd (pin : Nat) (s : State) : Host.Outcome State Fault Refusal :=
  s.run (fun h => h.setAng { h.ang with tout := tdel h.ang.tout pin })

/-- The level a TOUT pin is driven to, or none at high impedance (R109). -/
def Hub.toutLevel (h : Hub) (pin : Nat) : Option Bool :=
  if h.bit (0x30140 + 4 * pin) 0 then some ((tget h.ang.tout pin).isSome != h.bit (0x30140 + 4 * pin) 1) else none

/-! ### Registers -/

/-- Real-time position and EXT of a domain. -/
def Hub.realPos (h : Hub) (dom : Nat) : Half × Bool :=
  match (if h.synced dom then (h.courses dom).1.at_ (cycleOf dom) h.instant else none) with
  | none => (0xFFFF, true)
  | some (x, e) => (roundPos (cycleOf dom) x, e)

/-- What a fabric read of the angle unit gives. -/
def Hub.angRead (h : Hub) (off : Nat) : Word :=
  let c := h.ang.crank
  if 0x080 ≤ off ∧ off < 0x100 then
    let d := (off - 0x80) / 0x20
    match off % 0x20 with
    | 0x10 => BitVec.ofNat 32 ((if (h.dist d).track then 5 else 0) + (h.realPos (d + 2)).1.toNat * 65536)
    | 0x14 => (h.dist d).laps.setWidth 32
    | _ => h.seen (0x30000 + off)
  else
  match off with
  | 0x020 => setBits (h.seen 0x30020) 0 8 h.ang.angLevel.toNat
  | 0x060 => BitVec.ofNat 32 (c.state.code + c.prev.code * 16 + c.loss.toNat * 256 + c.reverse.toNat * 4096)
  | 0x064 => BitVec.ofNat 32 ((h.realPos 1).1.toNat + (h.realPos 1).2.toNat * 65536)
  | 0x068 => c.period
  | _ => h.seen (0x30000 + off)

/-- What a fabric read of a schedule entry gives. -/
def Hub.aseRead (h : Hub) (i off : Nat) : Word :=
  let x := h.ase i
  if off = 0xC then BitVec.ofNat 32 (x.armed.toNat + 2 * x.susp.toNat + 4 * x.defer.toNat + x.fires.toNat * 65536)
  else h.seen (aseReg i off)

/-- An ANG_IN pin is enabled for its LK fields (R89): a field of a part that is itself off names no pin. (log 123: DESIGN CHOICE) -/
def Hub.angPinUsed (h : Hub) (pin : Nat) : Bool :=
  let crank := h.bit 0x30040 0 && (h.fld 0x30044 12 3 == pin || (h.bit 0x30048 16 && h.fld 0x30048 17 3 == pin)
    || (h.fld 0x30048 22 2 == 2 && h.fld 0x30048 24 3 == pin))
  let dst := (List.range 4).any (fun d => h.bit (dstReg d 0) 0 && (h.fld (dstReg d 4) 0 3 == pin
    || (h.bit (dstReg d 4) 8 && h.fld (dstReg d 4) 4 4 == 8 + pin)))
  crank || dst || h.liveSids.any (fun s => h.kind s == 5 && h.srcIndex s == pin)

/-- A TRG pin is enabled for its LK fields (R187). -/
def Hub.trgPinUsed (h : Hub) (pin : Nat) : Bool :=
  (List.range 128).any (fun i => h.txOn i && h.trig i == 2 && h.fld (txReg i 8) 4 3 == pin)
    || (List.range 4).any (fun d => h.bit (dstReg d 4) 8 && h.fld (dstReg d 4) 4 4 == pin)
    || h.liveSids.any (fun s => h.kind s == 4 && h.srcIndex s == pin)

/-- A CRK_WHEEL value holds none of the combinations R92 reserves. -/
def wheelOk (v : Word) : Bool :=
  let n := bits v 0 8 + 1
  let k := bits v 8 2
  let x := bits v 10 1
  divides 23040 n && !(k = 0 && x = 0) && !(k ≠ 0 && x = 1) && decide (3 ≤ n - k)

/-- A fabric write to the angle unit (R89, R91, R92, R99, R106, R109, R110). -/
def Hub.angWrite (h : Hub) (off : Nat) (v : Word) : Hub :=
  let a := 0x30000 + off
  if off < 0x20 then h.putReg angErr 0 a (h.angPinUsed (off / 4)) anyField v else
  if 0x080 ≤ off ∧ off < 0x100 then
    let d := (off - 0x80) / 0x20
    if off % 0x20 = 0 then
      let h1 := h.dstEnable d (v.getLsbD 0)
      if v.getLsbD 1 then h1.dstZero d else h1
    else h.putReg angErr 0 a (h.bit (dstReg d 0) 0) anyField v
  else
  match off with
  | 0x040 =>
    let h1 := h.crkEnable (v.getLsbD 0)
    if v.getLsbD 1 then h1.crkResync else h1
  | 0x044 =>
    let on := h.bit 0x30040 0
    let same := decide (v &&& 0x77FF = h.reg a)
    if on then (if same then h else h.flag angErr 1 0) else if wheelOk v then h.setReg a (v &&& 0x77FF) else h.flag angErr 0 0
  | 0x100 =>
    let h1 := if v.getLsbD 0 then h.astEnable else h.setBit 0x30100 0 false
    if v.getLsbD 1 then h1.disarmAll else h1
  | _ =>
    if 0x140 ≤ off ∧ off < 0x160 then
      let h1 := h.putReg angErr 0 a (h.bit a 0) anyField v
      if h1.bit a 0 then h1 else h1.setAng { h1.ang with tout := tdel h1.ang.tout ((off - 0x140) / 4) }
    else h.putReg angErr 0 a (h.bit 0x30040 0) anyField v

/-- A fabric write to a schedule entry (R102, R103). -/
def Hub.aseWrite (h : Hub) (i off : Nat) (v : Word) : Hub :=
  match off with
  | 0x0 => h.asePosWrite i v
  | 0x4 => h.aseActionWrite i v
  | 0x8 => h.putReg angErr 0 (aseReg i 8) (h.ase i).armed anyField v
  | _ => h

end Sys2Proof.Machine
end

