-- ==== Sys2Proof/Machine/Banks.lean ====
section
/-! DEFINITION. Decimation and resampling (R112 to R148): the filter chains with their exact arithmetic, the instants of their
outputs, clock groups, priming and commits, and the lattice of a resampler. -/

namespace Sys2Proof.Machine

/-! ### The response ROM (R130 to R133, R439) -/

/-- Stored words of a response (R439). -/
def coefCount (id : Nat) : Nat :=
  let r := resp id
  match r.kind with
  | 1 => (r.taps + 5) / 4
  | 4 => if id = 0x28 then 4 else 64 * r.taps
  | 0 => 0
  | _ => if r.minph then r.taps else (r.taps + 1) / 2

/-- Place of a response's first stored word (R439). -/
def coefBase (id : Nat) : Nat := (List.range id).foldl (fun n k => n + coefCount k) 0

/-- How often stored word i of a filter response stands among its taps (R439). -/
def wordTaps (id i : Nat) : Nat :=
  let r := resp id
  if r.minph then 1
  else if r.kind = 1 then (if i = (r.taps + 1) / 4 then 1 else 2)
  else if 2 * i + 1 = r.taps then 1 else 2

/-- The part's words of a filter response give a gain of 1 at 0 Hz, within 2^-30 and not below 1 (R113). -/
def gainOk (id : Nat) : Bool :=
  let sum := (List.range (coefCount id)).foldl (fun (n : Int) i => n + (wordTaps id i : Int) * (Config.romWord (coefBase id + i)).toInt) 0
  decide (2 ^ 30 ≤ sum ∧ sum ≤ 2 ^ 30 + 1)

/-- Stored word i of a response: those R439 lists, and those it leaves to the part's file. A filter whose words missed the gain that R113 states is
no filter of any part; the model then passes its middle taps alone. (log 3: DESIGN CHOICE) -/
def storedWord (id i : Nat) : Word :=
  match id with
  | 0x2D => 0x40000000
  | 0x2E => 0x20000000
  | 0x2F => 0x10000000
  | 0x28 => if i = 1 then 0x40000000 else 0
  | _ =>
    if (resp id).kind = 4 || gainOk id then Config.romWord (coefBase id + i)
    else if i + 1 ≠ coefCount id then 0 else if wordTaps id i = 1 then 0x40000000 else 0x20000000

/-- Word k of the coefficient window: zero past the last stored word (R130). (log 3: DESIGN CHOICE) -/
def windowWord (k : Nat) : Word :=
  match (List.range 48).find? (fun id => decide (coefBase id ≤ k ∧ k < coefBase id + coefCount id)) with
  | none => 0
  | some id => storedWord id (k - coefBase id)

/-- Tap i of a filter response, with 30 fraction bits (R131). -/
def tapOf (id i : Nat) : Int :=
  let r := resp id
  let j := min i (r.taps - 1 - i)
  if r.kind = 1 then
    let c := (r.taps - 1) / 2
    if i = c then (storedWord id ((c + 1) / 2)).toInt else if j % 2 = 0 then (storedWord id (j / 2)).toInt else 0
  else (storedWord id (if r.minph then i else j)).toInt

/-- Tap t of phase f of a sinc kernel; phase 64 is phase 0 shifted by one sample (R132, R139). -/
def phaseTap (id f t : Nat) : Int :=
  let n := (resp id).taps
  if f < 64 then (storedWord id (f * n + t)).toInt else if t = 0 then 0 else (storedWord id (t - 1)).toInt

/-- CRC-32 of R39, one byte at a time. -/
def crcStep (c : Word) : Nat → Word
  | 0 => c
  | n + 1 => crcStep (if c.getLsbD 0 then (c >>> 1) ^^^ 0xEDB88320 else c >>> 1) n
def crc32 (bs : List Byte) : Word := ~~~ (bs.foldl (fun c b => crcStep (c ^^^ b.setWidth 32) 8) 0xFFFFFFFF)

/-- Passband, stopband, ripple and attenuation fields of the descriptors (R131, R133). -/
def respPass (id : Nat) : Nat :=
  match id with
  | 0x00 => 2000
  | 0x01 => 2000
  | 0x02 => 1000
  | 0x03 => 1500
  | 0x04 => 2500
  | 0x05 => 3000
  | 0x06 => 4000
  | 0x07 => 4500
  | 0x28 => 1000
  | 0x29 => 3000
  | 0x2A => 3500
  | 0x2B => 4000
  | 0x2C => 4500
  | n => if n ≤ 0x11 then 4000 else if n ≥ 0x2D then 0 else if n % 4 < 2 then 4000 else 4500
/-- RIPPLE; R133 states none for the boxcars. (log 129: DESIGN CHOICE) -/
def respRipple (id : Nat) : Nat :=
  match id with
  | 0x00 => 2700
  | 0x01 => 140
  | 0x02 => 27000
  | 0x03 => 870
  | 0x04 => 87
  | 0x05 => 27
  | 0x06 => 140
  | 0x07 => 1100
  | 0x28 => 10000
  | 0x29 => 3000
  | 0x2A => 20000
  | 0x2B => 300
  | 0x2C => 3000
  | n => if n ≤ 0x0F then 5000 else if n ≥ 0x2D then 0 else if n % 2 = 0 then 500 else 100
def respAtten (id : Nat) : Nat :=
  match id with
  | 0x00 => 700
  | 0x01 => 960
  | 0x02 => 500
  | 0x03 => 800
  | 0x04 => 1000
  | 0x05 => 1100
  | 0x06 => 960
  | 0x07 => 780
  | 0x08 => 0
  | 0x09 => 0
  | 0x0A => 0
  | 0x0E => 0
  | 0x28 => 350
  | 0x29 => 700
  | 0x2A => 550
  | 0x2B => 900
  | 0x2C => 700
  | n => if n ≤ 0x0F then 1000 else if n ≥ 0x2D then 0 else if n % 2 = 1 then 1200 else if n < 0x18 then 1000 else 1050

/-- A descriptor word (R131). -/
def descWord (id off : Nat) : Word :=
  let r := resp id
  let sym := r.kind != 4 && !r.minph && r.kind != 0
  let pass := respPass id
  let stop := if pass = 0 then 0 else if r.ratio = 1 then 5000 else 10000 - pass
  match off with
  | 0x00 => BitVec.ofNat 32 (r.kind + r.minph.toNat * 16 + r.ratio * 256 + r.taps * 65536)
  | 0x04 => BitVec.ofNat 32 r.gd
  | 0x08 => BitVec.ofNat 32 (pass + stop * 65536)
  | 0x0C => BitVec.ofNat 32 (respRipple id + respAtten id * 65536)
  | 0x10 => BitVec.ofNat 32 (coefBase id + coefCount id * 65536)
  | 0x14 => BitVec.ofNat 32 (0x1E + sym.toNat * 256)
  | 0x18 => crc32 ((List.range (coefCount id)).flatMap (fun i => bytesOf 4 (storedWord id i).toNat))
  | _ => 0

/-- What a read of the ROM area gives (R130). -/
def romRead (o : Nat) : Word :=
  if o < 0x9000 then (if (o - 0x8000) / 0x40 < 48 then descWord ((o - 0x8000) / 0x40) (o % 0x40) else 0) else windowWord ((o - 0x9000) / 4)

/-! ### Filter arithmetic (R113) -/

/-- An exact value rounded to the nearest and saturated symmetrically, with its SAT mark. (log 35: DEDUCED) -/
def settleVal (num : Int) (den : Nat) (sat : Bool) : Val :=
  let r := roundDiv num den
  let v := limit 32 r
  { v := v, sat := sat || v ≠ r }

/-- Coefficients of (1 + z + ... + z^(r-1))^n. (log 35: DEDUCED) -/
def convolve (a b : List Int) : List Int :=
  match a with
  | [] => []
  | x :: r =>
    let t := 0 :: convolve r b
    let s := b.map (fun y => x * y)
    (List.range (max t.length s.length)).map (fun i => (s[i]?).getD 0 + (t[i]?).getD 0)
def cicTaps (n r : Nat) : List Int := repeatN (fun l => convolve (List.replicate r 1) l) n [1]

/-- The CIC output over its newest inputs, scaled to full scale (R113). (log 4: DESIGN CHOICE) -/
def cicOut (n r : Nat) (hist : List Bool) : Val :=
  let sum := ((cicTaps n r).zip hist).foldl (fun a e => a + e.1 * (if e.2 then 1 else -1)) 0
  settleVal (sum * 2 ^ 31 * (2 ^ 40 + ((Config.cicTrim n r).toNat : Int))) (r ^ n * 2 ^ 40) false

/-- A FIR or half-band over its newest inputs, newest first (R113). (log 35: DEDUCED) -/
def firOut (id : Nat) (hist : List Val) : Val :=
  let n := (resp id).taps
  let l := keep n hist
  let sum := (l.zipIdx).foldl (fun a e => a + tapOf id e.2 * e.1.v) 0
  settleVal sum (2 ^ 30) (l.any (fun x => x.sat))

/-- The cubic Lagrange value at a fraction of u / 2^24 between the second and third of four samples, oldest first (R132). -/
def cubic (u : Nat) (a b c d : Val) : Val :=
  let U : Int := u
  let D : Int := 2 ^ 24
  let num := -(U * (U - D) * (U - 2 * D)) * a.v + 3 * ((U + D) * (U - D) * (U - 2 * D)) * b.v
    - 3 * ((U + D) * U * (U - 2 * D)) * c.v + ((U + D) * U * (U - D)) * d.v
  settleVal num (6 * 2 ^ 72) (a.sat || b.sat || c.sat || d.sat)

/-- The value of a history's entry, zero before anything was recorded. -/
def histVal (l : List Val) (i : Nat) : Val := (l[i]?).getD { v := 0, sat := false }

/-! ### Bank H (R112 to R119, R125 to R128) -/

/-- HB_ERR (R119). -/
def hbErr : ErrReg := ⟨0x4F07C, 5, 16, 6⟩

/-- The checks of R125 on a Bank H configuration. -/
def hCfgOk (c : HCfg) (div : Nat) : Bool :=
  (c.hbs < 1 || (resp c.hb1).kind = 1) && (c.hbs < 2 || (resp c.hb2).kind = 1)
    && ((resp c.fir).kind = 2 || (resp c.fir).kind = 3) && rateOk c div

/-- A response usable in a Bank M stage (R125). -/
def mRespOk (id : Nat) : Bool := (resp id).kind = 1 || (resp id).kind = 2 || (resp id).kind = 3

/-- One bit into a slice that filters: the slice after it, with the output the bit completes, if any (R112, R117); while it primes, none before its
span lies wholly after the first bit (R127). The Farrow stage takes the newest four outputs that the final FIR in force gives from its own inputs
(R128). -/
def pushBit (c : HCfg) (x : HSlice) (b : Bool) : HSlice × Option Val :=
  let line := keep 1024 (b :: x.line)
  let n := x.count + 1
  let tapped := line.getD (c.phd / 64) false
  let cic := keep (c.order * (c.ratio - 1) + 1) (tapped :: x.cic)
  let y := { x with line := line, cic := cic, count := n }
  if n % c.ratio ≠ 0 then (y, none) else
  let v0 := cicOut c.order c.ratio cic
  let k := n / c.ratio
  let h1 := if c.hbs ≥ 1 then keep 512 (v0 :: x.hb1) else x.hb1
  let y1 := { y with hb1 := h1 }
  if c.hbs ≥ 1 ∧ k % 2 ≠ 0 then (y1, none) else
  let v1 := if c.hbs ≥ 1 then firOut c.hb1 h1 else v0
  let h2 := if c.hbs ≥ 2 then keep 512 (v1 :: x.hb2) else x.hb2
  let y2 := { y1 with hb2 := h2 }
  if c.hbs ≥ 2 ∧ (k / 2) % 2 ≠ 0 then (y2, none) else
  let v2 := if c.hbs ≥ 2 then firOut c.hb2 h2 else v1
  let hf := keep 528 (v2 :: x.fir)
  let y3 := { y2 with fir := hf }
  if n % c.total ≠ 0 then (y3, none) else
  let far := (List.range 4).map (fun k => firOut c.fir (hf.drop (k * (resp c.fir).ratio)))
  let u := roundDiv (((64 * c.total : Int) - (c.phd % 64 : Nat)) * 2 ^ 24) (64 * c.total)
  let out := cubic u.toNat (histVal far 3) (histVal far 2) (histVal far 1) (histVal far 0)
  ({ y3 with farrow := far }, if !x.priming || n ≥ c.span then some out else none)

/-- TIME value of edge k of a group, with DELAY in force (R81). -/
def edgeInstant (runs : List EdgeRun) (k : Nat) : Instant :=
  match runs.find? (fun r => r.k ≤ k) with
  | some r => accInstant (r.acc + r.step * BitVec.ofNat 64 (k - r.k)) + inst256 r.delay.toNat
  | none =>
    match runs.getLast? with
    | some r => accInstant (r.acc - r.step * BitVec.ofNat 64 (r.k - k)) + inst256 r.delay.toNat
    | none => 0

/-- The instant of an output whose last bit belongs to edge e (R81). -/
def outputInstant (runs : List EdgeRun) (c : HCfg) (e : Nat) : Instant :=
  let d := c.delay256
  let a := edgeInstant runs (e - d / 256)
  let b := edgeInstant runs (e - d / 256 - 1)
  a - BitVec.ofNat 72 ((d % 256) * (a - b).toNat / 256)

/-- An output or a run of the pair is compared, and agrees (R283, R284). (log 59: DESIGN CHOICE) -/
def Hub.agree (h : Hub) (k n : Nat) : Hub :=
  if h.shadowed k n 2 then h.setShd k { h.shd k with compared := (h.shd k).compared + 1 } else h

/-- The stream has stopped forming records, and what a hold kept from before that is still to be formed as it is released (R287, R289). -/
def Hub.left (h : Hub) (sid : Nat) : Bool := (h.strm sid).state == .draining || (h.strm sid).state == .waiting

/-- A grid or pass sample of context n goes to the stamp unit, or a hold keeps it (R285). Of a stream that forms records no more it comes from a
hold released, and is taken at once. -/
def Hub.rsOut (h : Hub) (sid n : Nat) (smp : Sample) : Hub :=
  if h.shadowed 2 n 3 then h.setShd 2 { h.shd 2 with smps := (h.shd 2).smps ++ [(sid, some smp)] }
  else if h.left sid then (h.agree 2 n).takeSample sid smp
  else { h.agree 2 n with handoff := (h.agree 2 n).handoff ++ [(sid, smp)] }

/-- A resampler context takes an output of its source (R136), and passes every LOSS_DIV-th while its domain is not synchronised
(R142): what is missing or cut before an output it takes then is missing or cut before the next it passes. After a loss the source's history has a
hole (R141). forms tells whether what it passes becomes a record. -/
def Hub.rsTake (h : Hub) (sid : Nat) (t : Instant) (v : Val) (per : Option Nat) (gap cut forms : Bool) : Hub :=
  let n := h.rsmp sid
  let x := h.rsl n
  let on := h.synced (h.domain sid)
  let y := { x with hist := keep 8192 ({ t := t, v := v, hole := x.hole || gap } :: x.hist), hole := false, cut := x.cut || cut,
                    gap := !on && (x.gap || gap) }
  let h := if h.shadowed 2 n 1 then h.setShd 2 { h.shd 2 with warmed := (h.shd 2).warmed + 1 } else h
  if on then h.setRsl n y else
  let div := h.fld (rsmReg n 4) 8 8
  if div = 0 then h.setRsl n y else
  if y.loss + 1 < div then h.setRsl n { y with loss := y.loss + 1 } else
  let smp : Sample := { instant := t, value := BitVec.ofInt 64 v.v, sat := v.sat, kind := .slice, status := 0,
                        period := per.map (fun p => p * div), pos := none, pass := true, gap := y.gap, fresh := y.cut }
  let h1 := h.setRsl n { y with loss := 0, cut := false, gap := false }
  let h2 := if forms then h1.rsOut sid n smp else h1
  if y.pending then h2.rsApply n none else h2

/-- The same for a stream as it stands. -/
def Hub.rsFeed (h : Hub) (sid : Nat) (t : Instant) (v : Val) (per : Option Nat) (gap cut : Bool) : Hub :=
  h.rsTake sid t v per gap cut (h.forms sid)

/-- The streams derived from one take an output of its slice (R136). -/
def Hub.feedDerived (h : Hub) (sid : Nat) (t : Instant) (v : Val) (per : Option Nat) (gap cut : Bool) : Hub :=
  (h.liveSids.filter (fun d => h.kind d == 6 && h.srcIndex d == sid)).foldl (fun g d => g.rsFeed d t v per gap cut) h

/-- An output of a slice as a sample of its own stream. -/
def sliceSample (t : Instant) (v : Val) (per : Option Nat) (gap cut : Bool) : Sample :=
  { instant := t, value := BitVec.ofInt 64 v.v, sat := v.sat, kind := .slice, status := 0, period := per, pos := none, pass := false, gap := gap,
    fresh := cut }

/-- An output of a slice goes to its stream, or to the resamplers that take it (R136). -/
def Hub.pass_ (h : Hub) (bank n : Nat) (t : Instant) (v : Val) (per : Option Nat) (gap cut : Bool) : Hub :=
  match h.sliceOwner bank n with
  | none => h
  | some sid =>
    let h1 := if h.rsmpEn sid then h.rsFeed sid t v per gap cut else { h with handoff := h.handoff ++ [(sid, sliceSample t v per gap cut)] }
    h1.feedDerived sid t v per gap cut

/-- The shadow of a unit that warms up takes an input too, and has warmed up once it has taken L of them (R283). (log 59: DESIGN CHOICE) -/
def Hub.warm (h : Hub) (k n span : Nat) : Hub :=
  if h.shadowed k n 1 then
    let x := h.shd k
    h.setShd k { x with warmed := x.warmed + 1, phase := if x.warmed + 1 ≥ span then 2 else 1 }
  else h

/-- A slice forms an output: a hold keeps it, else it goes on (R285). (log 59: DESIGN CHOICE) -/
def Hub.emit (h : Hub) (bank n : Nat) (t : Instant) (v : Val) (per : Option Nat) (gap cut : Bool) : Hub :=
  let k := bank - 1
  if h.shadowed k n 3 then
    h.setShd k { h.shd k with outs := (h.shd k).outs ++ [{ t := t, v := v, per := per, gap := gap, cut := cut }] }
  else (h.agree k n).pass_ bank n t v per gap cut

/-- One bit of a channel (R81, R113, R114): recorded in its delay line, and filtered while a stream forms records from it. (log 34: DEDUCED) -/
def Hub.hBit (h : Hub) (n : Nat) (b : Bool) : Hub :=
  let x := h.hsl n
  let b := b && !h.deaf b
  let e := x.edge
  let works := match h.sliceOwner 1 n with
    | none => false
    | some s => h.forms s
  let base := { x with edge := e + 1, lineN := x.lineN + 1 }
  if !works then h.setHsl n { base with line := keep 1024 (b :: x.line) } else
  let c := h.hCfgOf n
  let (y, out) := pushBit c base b
  let h := h.warm 0 n c.span
  match out with
  | none => h.setHsl n y
  | some v =>
    let g := h.grp (h.groupOf n)
    let t := outputInstant g.runs c e
    let per := h.div (h.groupOf n) * c.total * h.tinc.toNat * 256
    let h1 := h.setHsl n { y with priming := false, cut := false, settle := y.settle - 1 }
    let h2 := if v.sat then h1.bump (hchReg n 0x14) 0 16 1 else h1
    let h3 := h2.emit 1 n t v (some per) false y.cut
    if y.pending then h3.hApply n else h3

/-- BANK_H_OUTPUT: the bits channel n took at its group's edges since its last output, oldest first (R81, R112 to R114). (log 34: DEDUCED) -/
def Hub.hBits (h : Hub) (n : Nat) (bs : List Bool) : Hub :=
  if (h.grp (h.groupOf n)).on then bs.foldl (fun g b => g.hBit n b) h else h

def execBankHOutput (n : Nat) (bits : List Bool) (s : State) : Host.Outcome State Fault Refusal :=
  s.run (fun h => if n < 48 then h.hBits n bits else h)

/-- A commit finds the slice forming no outputs: its boundary is at once, but not while its stream is DRAINING (R126). (log 36: DEDUCED) -/
def Hub.atOnce (h : Hub) (bank n : Nat) (priming : Bool) : Bool :=
  match h.sliceOwner bank n with
  | none => true
  | some s => (h.strm s).state != .draining && (priming || (h.strm s).state == .waiting || (h.strm s).state == .fault)

/-- HCH_COMMIT (R125, R126). (log 36: DEDUCED) -/
def Hub.hchCommit (h : Hub) (n : Nat) : Hub :=
  if hCfgOk (h.hCfgNext n) (h.div (h.groupOf n)) then
    let h1 := (h.capture (hchReg n 0) 0x400).setHsl n { h.hsl n with pending := true }
    if h1.atOnce 1 n (h1.hsl n).priming then h1.hApply n else h1
  else ((h.discard (hchReg n 0) 0x400).setHsl n { h.hsl n with pending := false }).flag hbErr 2 n

def execHchCommit (n : Nat) (s : State) : Host.Outcome State Fault Refusal :=
  s.run (fun h => if n < 48 then h.hchCommit n else h)

/-! ### Clock groups (R114 to R116) -/

/-- Group g has a claimed slice. -/
def Hub.groupUsed (h : Hub) (g : Nat) : Bool :=
  (h.liveSids.filter (fun s => h.bank s == 1)).any (fun s => h.groupOf (h.slice s) == g)

/-- Group g starts: edge 0 falls on the second TIME tick, and every claimed slice of it primes (R114, R115). -/
def Hub.startGroup (h : Hub) (g : Nat) : Hub :=
  let h1 := h.setGrp g { Group.init with on := true, wait := 2 }
  ((List.range 48).filter (fun n => h1.groupOf n == g)).foldl (fun k n =>
    let x := k.hsl n
    let y := { x with edge := 0, lineN := 0 }
    if y = x then k else k.setHsl n y) h1 |> fun h2 =>
  ((h2.liveSids.filter (fun s => h2.bank s == 1)).filter (fun s => h2.groupOf (h2.slice s) == g)).foldl
    (fun k s => k.primeH (k.slice s)) h2

/-- Bank H is on: TIME locked, and a power state that runs it (R115). -/
def Hub.bankHOn (h : Hub) : Bool := h.tb.lock && decide (h.pwr.state ≤ 1)

/-- EN bits written 1: each group whose channels all lie in the rate range runs (R114, R116). -/
def Hub.groupEnable (h : Hub) (mask : BitVec 4) : Hub :=
  (ones 4 mask.toNat).foldl (fun k g =>
    if k.bit 0x4F010 g then k
    else match (List.range 48).find? (fun n => k.groupOf n == g && !rateOk (k.hCfgOf n) (k.div g)) with
      | some n => k.flag hbErr 3 n
      | none =>
        let k1 := k.setBit 0x4F010 g true
        if k1.bankHOn then k1.startGroup g else k1) h

def execHbGroupEnable (mask : BitVec 4) (s : State) : Host.Outcome State Fault Refusal := s.run (fun h => h.groupEnable mask)

/-- EN bits written 0: a group stops at the end of its clock period, unless a slice of it is claimed (R115). -/
def Hub.groupStop (h : Hub) (mask : BitVec 4) : Hub :=
  (ones 4 mask.toNat).foldl (fun k g =>
    if !k.bit 0x4F010 g then k
    else if k.groupUsed g then k.flag hbErr 4 g
    else (k.setBit 0x4F010 g false).setGrp g { k.grp g with ending := true }) h

def execHbGroupStop (mask : BitVec 4) (s : State) : Host.Outcome State Fault Refusal := s.run (fun h => h.groupStop mask)

/-- Every group is held low: holdover, or Bank H off (R26, R115). -/
def Hub.haltGroups (h : Hub) : Hub :=
  h.groups.foldl (fun k e => k.setGrp e.1 { e.2 with on := false, wait := 0, whole := false }) h

/-- Every group whose EN is 1 restarts together (R115). -/
def Hub.restartGroups (h : Hub) : Hub := (ones 4 (h.fld 0x4F010 0 4)).foldl (fun k g => k.startGroup g) h

/-- A group launches an edge: a run of even spacing goes on, or a new one begins (R81). -/
def launch (acc step : BitVec 64) (delay : BitVec 12) (g : Group) (div : Nat) : Group :=
  let k := g.edges
  let fits := match g.runs with
    | [] => false
    | r :: _ => decide (r.acc + r.step * BitVec.ofNat 64 (k - r.k) = acc ∧ r.delay = delay ∧ r.step = step)
  { g with edges := k + 1, wait := div,
           runs := if fits then g.runs else { k := k, acc := acc, step := step, delay := delay } :: g.runs }

/-- One TIME tick of every clock group (R114). (log 16: DESIGN CHOICE) -/
def Hub.tickGroups (h : Hub) : Hub :=
  h.groups.foldl (fun k e =>
    let x := e.2
    if !x.on then k
    else if x.wait > 1 then k.setGrp e.1 { x with wait := x.wait - 1 }
    else if x.ending then k.setGrp e.1 { x with on := false, ending := false, wait := 0, whole := false }
    else
      let d := k.div e.1
      k.setGrp e.1 (launch k.tb.acc (k.tinc * BitVec.ofNat 64 d) (tval 0 k.tb.delay e.1) x d)) h

/-- Level of DSCg: high for the first half of each period (R114). -/
def Hub.dscLevel (h : Hub) (g : Nat) : Bool :=
  let x := h.grp g
  x.on && x.edges != 0 && decide (h.div g - x.wait < h.div g / 2)

/-! ### Bank M (R120 to R128) -/

/-- MB_ERR (R123). -/
def mbErr : ErrReg := ⟨0x5F07C, 3, 16, 7⟩

/-- The checks of R125 on a Bank M configuration. -/
def mCfgOk (c : MCfg) : Bool :=
  (c.stages < 1 || mRespOk c.id1) && (c.stages < 2 || mRespOk c.id2) && decide (c.total ≤ 64)

/-- The averager over its newest a inputs (R120). -/
def average (a : Nat) (l : List MIn) : Val :=
  let m := keep a l
  settleVal (m.foldl (fun n i => n + i.v.v) 0) a (m.any (fun i => i.v.sat))

/-- One input into a slice that filters: the slice after it, and the output it completes, if any. -/
def pushWord (c : MCfg) (x : MSlice) (i : MIn) : MSlice × Option Val :=
  let ins := keep 16384 (i :: x.ins)
  let n := x.count + 1
  let y := { x with ins := ins, count := n, total := x.total + 1 }
  if n % c.avg ≠ 0 then (y, none) else
  let v0 := average c.avg ins
  let k := n / c.avg
  let h1 := if c.stages ≥ 1 then keep 512 (v0 :: x.st1) else x.st1
  let y1 := { y with st1 := h1 }
  if k % c.q1 ≠ 0 then (y1, none) else
  let v1 := if c.stages ≥ 1 then firOut c.id1 h1 else v0
  let h2 := if c.stages ≥ 2 then keep 512 (v1 :: x.st2) else x.st2
  let y2 := { y1 with st2 := h2 }
  if n % c.total ≠ 0 then (y2, none) else
  let v2 := if c.stages ≥ 2 then firOut c.id2 h2 else v1
  (y2, if !x.priming || n ≥ c.span then some v2 else none)

/-- The instant of a Bank M output, ending at the newest input (R86). -/
def mInstant (c : MCfg) (ins : List MIn) : Instant :=
  let d := c.delay256
  let at_ (i : Nat) : Instant := ((ins[i]?).map (fun x => x.t)).getD 0
  let a := at_ (d / 256)
  if d % 256 = 0 then a
  else a - BitVec.ofInt 72 (roundDiv ((d % 256 : Nat) * (a - at_ (d / 256 + 1)).toInt) 256)

/-- A slice takes the oldest word its port has delivered (R120, R121, R124). -/
def Hub.mWord (h : Hub) (n : Nat) : Hub :=
  let x := h.msl n
  match x.fifo with
  | [] => h
  | (t, v, per) :: rest =>
    let x1 := { x with fifo := rest, per := per }
    let works := match h.sliceOwner 2 n with
      | none => false
      | some s => h.forms s
    let early := match x.after with
      | none => false
      | some a => !before a t
    if !works || x.syncWait || early then h.setMsl n x1 else
    let c := mCfg (h.reg (mchReg n 0))
    let (y, out) := pushWord c { x1 with after := none } { t := t, v := v }
    let h := h.warm 1 n c.span
    match out with
    | none => h.setMsl n y
    | some w =>
      let ref := y.total - 1 - c.delay256 / 256
      let crossed := y.holes.filter (fun k => k.1 ≤ ref)
      let left := y.holes.filter (fun k => !(k.1 ≤ ref))
      let h1 := h.setMsl n { y with priming := false, cut := false, settle := y.settle - 1, holes := left }
      let h2 := if w.sat then h1.bump (mchReg n 0x0C) 0 16 1 else h1
      let h3 := h2.emit 2 n (mInstant c y.ins) w (per.map (fun p => p * c.total)) (crossed.any (fun k => k.2))
        (y.cut || !crossed.isEmpty)
      if y.pending then h3.mApply n else h3

/-- BANK_M_OUTPUT (R120). -/
def execBankMOutput (n : Nat) (s : State) : Host.Outcome State Fault Refusal :=
  s.run (fun h => if n < 64 then h.mWord n else h)

/-- A trigger of the slice's entry delivers no word; whether that sets GAP (R121). -/
def Hub.mHole (h : Hub) (n : Nat) (gap : Bool) : Hub :=
  let x := h.msl n
  h.setMsl n { x with holes := x.holes ++ [(x.total + x.fifo.length, gap)] }

/-- MCH_COMMIT (R125, R126). (log 36: DEDUCED) -/
def Hub.mchCommit (h : Hub) (n : Nat) : Hub :=
  if mCfgOk (mCfg (h.seen (mchReg n 0))) then
    let h1 := (h.capture (mchReg n 0) 0x200).setMsl n { h.msl n with pending := true }
    if h1.atOnce 2 n (h1.msl n).priming then h1.mApply n else h1
  else ((h.discard (mchReg n 0) 0x200).setMsl n { h.msl n with pending := false }).flag mbErr 2 n

def execMchCommit (n : Nat) (s : State) : Host.Outcome State Fault Refusal :=
  s.run (fun h => if n < 64 then h.mchCommit n else h)

/-- A SYNC acts at a PORT tick; one that falls on the tick of the last SYNC is the same SYNC (R124). -/
def Hub.sync (h : Hub) (tick : Instant) : Hub :=
  if h.lastSync = some tick then h else
  let h1 := ({ h with lastSync := some tick }).bump 0x5F004 0 16 1
  (h1.liveSids.filter (fun s => h1.bank s == 2)).foldl (fun k s =>
    let n := k.slice s
    match (k.strm s).state with
    | .armed => ((k.primeM n).rewarm 1 n).setMsl n { (k.primeM n).msl n with syncWait := false, after := some tick }
    | .running => k.bump (mchReg n 0x0C) 16 16 1
    | .waiting => k.bump (mchReg n 0x0C) 16 16 1
    | _ => k) h1

/-- The instant of the n-th PORT tick after the present TIME tick: eight PORT ticks span the five TIME ticks of a beat (R84). (log 37: DEDUCED) -/
def Hub.portAhead (h : Hub) (n : Nat) : Instant := h.portInstant (h.now - 256 * h.tb.beat) (256 * h.tb.beat / 160 + n)

/-- MB_SYNC: MB_CTRL.SYNC or the SYNC command, at the next PORT tick (R123, R124). (log 37: DEDUCED) -/
def execMbSync (s : State) : Host.Outcome State Fault Refusal := s.run (fun h => h.sync (h.portAhead 1))

/-- SYNC_N_FALL: with PIN_EN, at the third PORT tick after the edge (R123, R124). (log 37: DEDUCED) -/
def execSyncNFall (s : State) : Host.Outcome State Fault Refusal :=
  s.run (fun h => if h.bit 0x5F000 1 then h.sync (h.portAhead 3) else h)

/-! ### Resamplers (R136 to R148) -/

/-- RS_ERR (R146). -/
def rsErr : ErrReg := ⟨0x6707C, 4, 16, 6⟩

/-- Marks in order of time, oldest first, as pairs of neighbours. -/
def neighbours (l : List Mark) : List (Mark × Mark) := l.zip (l.drop 1)

/-- What becomes of the next lattice point of a context: nothing yet, missing at its instant, or formed with its instant and value and the
place of the oldest sample it used, the newest being 0 (R138 to R141). -/
inductive Point where
  | wait
  | lost (tp : Instant) (stale : Bool)
  | made (tp tv : Instant) (v : Val) (deep : Nat)
deriving DecidableEq, Repr

/-- A kernel at a fraction over its taps' samples, oldest first (R139). -/
def kernelOut (id u : Nat) (l : List Val) : Val :=
  if id = 0x28 then cubic u (histVal l 0) (histVal l 1) (histVal l 2) (histVal l 3) else
  let f := u / 2 ^ 18
  let r : Int := (u % 2 ^ 18 : Nat)
  let sum := (l.zipIdx).foldl (fun a e => a + (phaseTap id f e.2 * (2 ^ 18 - r) + phaseTap id (f + 1) e.2 * r) * e.1.v) 0
  settleVal sum (2 ^ 48) (l.any (fun x => x.sat))

/-- The source evaluated at t_v over a history, newest first (R139, R141). A sample that is not there has left the history unless nothing was
before the oldest one. -/
def evaluate (id : Nat) (hist : List RsIn) (tp tv : Instant) : Point :=
  if hist.isEmpty then .wait else
  let T := (resp id).taps
  let gone := Point.lost tp (!hist.getLast?.any (fun s => s.hole))
  match hist.findIdx? (fun s => !before tv s.t) with
  | none => gone
  | some 0 => .wait
  | some i =>
    match hist[i]?, hist[i - 1]? with
    | some a, some b =>
      let u := (roundDiv ((tv - a.t).toNat * 2 ^ 24) (b.t - a.t).toNat).toNat
      let j := if u = 2 ^ 24 then i - 1 else i
      let w := if u = 2 ^ 24 then 0 else u
      if j < T / 2 then .wait
      else if j + T / 2 - 1 ≥ hist.length then gone
      else
        let used := ((hist.drop (j - T / 2)).take T).reverse
        if (used.drop 1).any (fun s => s.hole) then .lost tp false
        else .made tp tv (kernelOut id w (used.map (fun s => s.v))) (j + T / 2 - 1)
    | _, _ => .wait

/-- The edges of a run that may bracket a point, oldest first; a beacon or ZERO that synchronised a DIST domain is the first of them, at
position 0 (R138, R143). (log 39: DEDUCED) -/
def bracketing (dom cyc : Nat) (run : Course) (st : Instant) : List Mark :=
  let all := run.marks.reverse
  let mine := all.filter (fun m => !before m.t st)
  if dom ≥ 2 && (decide (all.length < 8192) || decide (mine.length < all.length)) then
    { t := st, p := run.zeros.foldl (fun a z => posSub cyc a z.2) 0 } :: mine
  else mine

/-- The USER_LAT a point is evaluated with: that of the record it will stand in, a COMMIT that waits for the next record acting on it (R64, R139). -/
def Hub.pointLat (h : Hub) (sid : Nat) : Word :=
  let a := ctxReg sid 0x14
  if (h.strm sid).pending then tval (h.reg a) h.capt a else h.reg a

/-- The next lattice point of the context of a grid stream (R137 to R141): its position counts from the zero that began its lap, and the edges'
from the last one. (log 38: DESIGN CHOICE) -/
def Hub.pointOf (h : Hub) (sid n : Nat) : Point :=
  let x := h.rsl n
  let dom := h.domain sid
  let cyc := cycleOf dom
  match x.next with
  | none => .wait
  | some p =>
    let run := (h.courses dom).1
    match run.start with
    | none => .wait
    | some st =>
      let p16 := x.laps.foldl (fun a z => posSub cyc a z) (p * 65536)
      let fresh (m : Mark × Mark) : Bool :=
        decide (posSub cyc p16 m.1.p < posSub cyc m.2.p m.1.p) &&
          (match x.lastT with
            | none => true
            | some l => before l m.2.t)
      match (neighbours (bracketing dom cyc run st)).find? fresh with
      | none => .wait
      | some (a, b) =>
        let dt := (b.t - a.t).toNat
        let tp := a.t + BitVec.ofInt 72 (roundDiv ((posSub cyc p16 a.p : Nat) * dt) (posSub cyc b.p a.p))
        let stall := dom ≥ 2 && decide (dt > h.fld (dstReg (dom - 2) 0xC) 16 16 * 1000000 * 2 ^ 40)
        if stall then .lost tp true
        else evaluate (h.fld (rsmReg n 4) 0 8) x.hist tp (tp + ((h.pointLat sid).signExtend 72 <<< 36))

/-- The next lattice point of a stream; no more are formed once it is DRAINING, nor while it waits and a hold has still to release what came before. (log 38: DESIGN CHOICE) -/
def Hub.nextPoint (h : Hub) (sid n : Nat) : Point :=
  let st := (h.strm sid).state
  if st = .draining || (st = .waiting && h.onHold sid) then .wait else h.pointOf sid n

/-- The lattice moves to the point after p; on a DIST domain the wrap closes the open record, and a lap that a zero has ended goes no further
than where it ended (R137). (log 39: DEDUCED) -/
def Hub.stepLattice (h : Hub) (sid n p : Nat) (tp : Instant) : Hub :=
  let dom := h.domain sid
  let cyc := cycleOf dom / 65536
  let sp := h.fld (rsmReg n 0) 0 10
  let over_ := decide (p + sp ≥ cyc)
  let q := if !over_ then p + sp else if dom = 1 then p + sp - cyc else h.fld (rsmReg n 0) 16 10
  let h1 := if over_ && dom != 1 then h.newLap sid n else h
  (h1.setRsl n { h1.rsl n with next := some q, lastT := some tp }).endLaps sid n

/-- A grid point of context n goes to the stamp unit; a shadow whose samples were all taken after its start begins to compare, and a hold
keeps the point (R283, R285). -/
def Hub.gridOut (h : Hub) (sid n deep : Nat) (smp : Sample) : Hub :=
  (if h.shadowed 2 n 1 && decide (deep < (h.shd 2).warmed) then h.setShd 2 { h.shd 2 with phase := 2 } else h).rsOut sid n smp

/-- A grid point of context n is missing: the open record closes and the next carries GAP, after what a hold keeps (R138, R285). -/
def Hub.gridLost (h : Hub) (sid n : Nat) : Hub :=
  if h.shadowed 2 n 3 then h.setShd 2 { h.shd 2 with smps := (h.shd 2).smps ++ [(sid, none)] } else (h.formRecord sid).lose sid

/-- A lattice point of context n is formed for a stream that forms records, or is missing (R138 to R141); a pending commit acts after a point that is
formed (R148). A point that closes the stream's first record counts as missing after it. (log 38: DESIGN CHOICE) -/
def Hub.formPoint (h : Hub) (sid n : Nat) (forms : Bool) (pt : Point) : Hub :=
  let x := h.rsl n
  match x.next, pt with
  | some p, .made tp tv v deep =>
    let smp : Sample := { instant := tv, value := BitVec.ofInt 64 v.v, sat := v.sat, kind := .slice, status := 0, period := none,
                          pos := some (BitVec.ofNat 16 p), pass := false, gap := false, fresh := x.cut,
                          grid := h.fld (rsmReg n 0) 0 10, lat := some (h.pointLat sid) }
    let h1 := if forms then h.gridOut sid n deep smp else h
    let h2 := (h1.setRsl n { x with last := BitVec.ofNat 16 p, cut := false }).stepLattice sid n p tp
    if x.pending then h2.rsApply n (some (p + 1)) else h2
  | some p, .lost tp stale =>
    let h1 := h.gridLost sid n
    let h2 := if stale && !(h1.strm sid).fresh then h1.bump (rsmReg n 0x10) 0 16 1 else h1
    h2.stepLattice sid n p tp
  | _, _ => h

/-- GRID_POINT: the next lattice point of context n is formed once it can be. (log 38: DESIGN CHOICE) -/
def Hub.gridPoint (h : Hub) (n : Nat) : Hub :=
  match h.rsmpOwner n with
  | none => h
  | some sid => h.formPoint sid n (h.forms sid) (h.nextPoint sid n)

def execGridPoint (n : Nat) (s : State) : Host.Outcome State Fault Refusal :=
  s.run (fun h => if n < 32 then h.gridPoint n else h)

/-- A resampler's outputs are forming: its stream runs, or has an open record, and its domain is synchronised or LOSS_DIV passes samples (R148). -/
def Hub.rsForming (h : Hub) (sid n : Nat) : Bool :=
  let x := h.strm sid
  (x.state == .running || (x.state == .armed && !x.slots.isEmpty)) && (h.synced (h.domain sid) || h.fld (rsmReg n 4) 8 8 != 0)

/-- RS_COMMIT (R147, R148): at once while no output is forming, but not while its stream is DRAINING. (log 39: DEDUCED) -/
def Hub.rsCommit (h : Hub) (n : Nat) : Hub :=
  let owner := h.rsmpOwner n
  let dom := match owner with
    | none => 1
    | some s => h.domain s
  if !gridOk dom (h.seen (rsmReg n 0)) (h.seen (rsmReg n 4)) then
    ((h.discard (rsmReg n 0) 0x100).setRsl n { h.rsl n with pending := false }).flag rsErr 2 n
  else
    let h1 := h.capture (rsmReg n 0) 0x100
    let waits : Bool := match owner with
      | none => false
      | some s => h.rsForming s n || (h.strm s).state == .draining
    if waits then h1.setRsl n { h1.rsl n with pending := true } else h1.rsApply n (h1.rsl n).next

def execRsCommit (n : Nat) (s : State) : Host.Outcome State Fault Refusal :=
  s.run (fun h => if n < 32 then h.rsCommit n else h)

/-- ROM_WRITE: discarded, naming no page (R130, R146). -/
def execRomWrite (_by : Initiator) (_addr : Nat) (_val : Word) (s : State) : Host.Outcome State Fault Refusal :=
  s.run (fun h => h.flag rsErr 3 0x3F)

/-! ### Register writes -/

/-- A fabric write to a Bank H page (R116, R118). -/
def Hub.hchWrite (h : Hub) (n off : Nat) (v : Word) : Hub :=
  if n ≥ 48 then h else
  match off with
  | 0x0C =>
    let locked := (h.sliceOwner 1 n).isSome
    let g := bits v 0 2
    let h1 :=
      if g = h.groupOf n then h
      else if locked then h.flag hbErr 1 n
      else if rateOk (h.hCfgOf n) (h.div g) then
        (h.setFld (hchReg n 0x0C) 0 2 g).setHsl n { h.hsl n with edge := (h.grp g).edges, lineN := 0 }
      else h.flag hbErr 3 n
    if v.getLsbD 8 then h1.hchCommit n else h1
  | _ => h.putReg hbErr n (hchReg n off) false anyField v

/-- A fabric write to Bank H's common registers (R115, R119): HB_GRP_EN bits that change act together; an error of HB_DIV names its group. (log 128: DESIGN CHOICE) -/
def Hub.hbcWrite (h : Hub) (off : Nat) (v : Word) : Hub :=
  match off with
  | 0xF010 =>
    let now := BitVec.ofNat 4 (h.fld 0x4F010 0 4)
    let new : BitVec 4 := v.setWidth 4
    (h.groupStop (now &&& ~~~ new)).groupEnable (new &&& ~~~ now)
  | _ =>
    let g := (off - 0xF000) / 4
    h.putReg hbErr g (0x40000 + off) (h.bit 0x4F010 g || h.groupUsed g) anyField v

/-- A fabric write to a Bank M page (R122). -/
def Hub.mchWrite (h : Hub) (n off : Nat) (v : Word) : Hub :=
  if n ≥ 64 then h else
  if off = 0x04 then (if v.getLsbD 0 then h.mchCommit n else h)
  else h.putReg mbErr n (mchReg n off) (h.sliceOwner 2 n).isSome anyField v

/-- A fabric write to Bank M's common registers (R123). -/
def Hub.mbcWrite (h : Hub) (off : Nat) (v : Word) : Hub :=
  let h1 := h.putReg mbErr 0 (0x50000 + off) false anyField v
  if off = 0xF000 ∧ v.getLsbD 0 then h1.sync (h1.portAhead 1) else h1

/-- A fabric write to a resampler page (R145). -/
def Hub.rsmWrite (h : Hub) (n off : Nat) (v : Word) : Hub :=
  if n ≥ 32 then h else
  if off = 0x08 then (if v.getLsbD 0 then h.rsCommit n else h) else h.putReg rsErr n (rsmReg n off) false anyField v

end Sys2Proof.Machine
end

