-- ==== Sys2Proof/Machine/Recog.lean ====
section
/-! DEFINITION. Event recognition (R200 to R218): samples of records at stage 7, the kinds, windows, COMBINE, and the actions of a
trigger; with the holds a wake sets (R309 to R311). -/

namespace Sys2Proof.Machine

/-- REC_ERR (R217). -/
def recErr : ErrReg := ⟨0x7F07C, 3, 16, 8⟩

/-- Address of a recogniser's register, the recogniser r, and the recogniser set. -/
def recReg (r off : Nat) : Nat := 0x70000 + 0x80 * r + off
def Hub.rcg (h : Hub) (r : Nat) : Recog := tval Recog.init h.recs r
def Hub.setRcg (h : Hub) (r : Nat) (x : Recog) : Hub := { h with recs := tset Recog.init h.recs r x }

/-! ### Holds (R309, R311) -/

/-- A hold at a ceiling, from now for WAKE_HOLD_MS; one at the same ceiling restarts (R311). -/
def Hub.hold_ (h : Hub) (ceil : Nat) : Hub :=
  let stop := h.now + h.fld 0x10104 16 16 * 64000000
  { h with pwr := { h.pwr with holds := h.pwr.holds.filter (fun x => x.1 != ceil) ++ [(ceil, stop)] } }

/-- A wake: its CAUSE bit sets and it holds the ceiling (R309, R311). -/
def Hub.wakeBy (h : Hub) (bit ceil : Nat) : Hub := (h.setBit 0x10118 bit true).hold_ ceil

/-- WAKE_CEIL. -/
def Hub.wakeCeil (h : Hub) : Nat := h.fld 0x10104 12 2

/-! ### Configuration -/

/-- KIND of a recogniser. -/
def Hub.recKind (h : Hub) (r : Nat) : Nat := h.fld (recReg r 4) 0 3

/-- It takes samples through windows: GATE or PEAKWIN (R203, R205). -/
def Hub.recGated (h : Hub) (r : Nat) : Bool := h.bit (recReg r 4) 15 || h.recKind r == 3

/-- It runs: enabled, and not stopped by the power state (R202, R215). -/
def Hub.recRuns (h : Hub) (r : Nat) : Bool :=
  h.bit (recReg r 0) 0 && (decide (h.pwr.state < 3) || (h.pwr.state == 3 && decide (r < 16)))

/-- A threshold extended as samples are (R200). -/
def extWord (unsig : Bool) (w : Word) : Int := if unsig then (w.toNat : Int) else w.toInt

/-- v32: a value saturated symmetrically to 32 bits (R211). -/
def v32 (x : Int) : Nat := (limit 32 x % 2 ^ 32).toNat

/-- The inputs a COMBINE uses: place and recogniser (R210). -/
def combInputs (w : Word) : List (Nat × Nat) :=
  (List.range 4).filterMap (fun k => if w.getLsbD (8 * k + 7) then some (k, bits w (8 * k) 7) else none)

/-- The checks of R216, given the register values that would be in force: whether they pass. -/
def Hub.recOk (h : Hub) (r : Nat) (g : Nat → Word) : Bool :=
  let cfg := g 0x04
  let kind := bits cfg 0 3
  let uns := cfg.getLsbD 7
  let cmp := bits cfg 13 2
  let tested := kind ≤ 2 || (kind == 4 && cmp ≥ 2)
  let used := combInputs (g 0x14)
  let ring := bits (g 0x20) 0 7
  !(tested && decide (extWord uns (g 0x0C) > extWord uns (g 0x08)))
    && !(kind == 4 && decide (bits cfg 25 5 > bits cfg 20 5))
    && !(kind == 5 && (used.isEmpty || used.any (fun u => decide (u.2 ≥ r))))
    && !((g 0x1C).getLsbD 19 && (!h.ringOn ring || decide (bits (g 0x24) 0 20 + bits (g 0x28) 0 20 + 1 > h.ringCap ring)))
    && !(cfg.getLsbD 15 && kind == 5)

/-- A pending commit of a recogniser takes effect (R216, R218). -/
def Hub.recApply (h : Hub) (r : Nat) : Hub :=
  if (h.rcg r).pending then (h.apply (recReg r 0) 0x80).setRcg r { h.rcg r with pending := false } else h

/-! ### Actions (R211 to R215) -/

/-- What a trigger takes from the sample or input change that caused it (R210, R211). -/
structure Cause where
  t    : BitVec 36
  sid  : Byte
  pos  : Half
  flg  : BitVec 4
  slot : Nat := 0
deriving DecidableEq, Repr

/-- A cause with no record behind it (R210). -/
def bareCause (t : BitVec 36) : Cause := { t := t, sid := 0, pos := 0xFFFF, flg := 0 }

/-- The event record of a trigger (R211). -/
def Hub.trigEvent (h : Hub) (r : Nat) (c : Cause) (val : Nat) : Record :=
  let act := h.reg (recReg r 0x1C)
  { ts := tsOf c.t, pos := c.pos, sid := c.sid, tsf := tsfOf c.t, flg := c.flg ||| 8,
    pay := eventPay (0x40 + bits act 12 6) (bits act 8 4) r (BitVec.ofNat 40 val) }

/-- A trigger: counted, and its actions wait with the settings then in force (R211, R216, R218). -/
def Hub.trigger (h : Hub) (r : Nat) (c : Cause) (val : Nat) : Hub :=
  let g := h.bump (recReg r 0x3C) 0 16 1
  { g with fired := g.fired ++ [{ r := r, slot := c.slot, e := h.trigEvent r c val, act := h.reg (recReg r 0x1C), cap := h.reg (recReg r 0x20),
                                  pre := h.reg (recReg r 0x24), post := h.reg (recReg r 0x28) }] }

/-- A trigger carries out the actions enabled, in order: event, capture, interrupt, power request (R211 to R215). -/
def Hub.carryOut (h1 : Hub) (x : Fired) : Hub :=
  let act := x.act
  let deep := h1.pwr.state == 3
  let lost (g : Hub) : Hub := g.bump (recReg x.r 0x40) 24 8 1
  let h2 :=
    if !act.getLsbD 0 then h1
    else
      let q := bits act 1 5
      if deep then
        let y := h1.rcg x.r
        let g := h1.setRcg x.r { y with held := some (q, x.e) }
        if y.held.isSome then lost g else g
      else h1.insert q x.e
  let h3 :=
    if !act.getLsbD 19 then h2
    else if deep then lost h2
    else (h2.capture_ (bits x.cap 0 7) (bits x.pre 0 20) (bits x.post 0 20)).getD (lost h2)
  let h4 := if act.getLsbD 18 then h3.setBit (0x7F000 + 4 * (x.r / 32)) (x.r % 32) true else h3
  if act.getLsbD 20 then h4.wakeBy 8 (bits act 21 2) else h4

/-- A trigger in its place: ascending recogniser index, then slot (R211). -/
def inTurn (x : Fired) : List Fired → List Fired
  | [] => [x]
  | y :: r => if y.r < x.r ∨ (y.r = x.r ∧ y.slot ≤ x.slot) then y :: inTurn x r else x :: y :: r

/-- The triggers that wait carry out their actions, in ascending recogniser index and slot order (R211). -/
def Hub.acted (h : Hub) : Hub := (h.fired.foldl (fun l x => inTurn x l) []).foldl Hub.carryOut { h with fired := [] }

/-! ### Outputs and COMBINE (R203, R210) -/

/-- The last rise of recogniser i, while stamps near it can be told from those a turn of TS later. -/
def Hub.riseOf (h : Hub) (i : Nat) : Option (BitVec 36) :=
  let x := h.rcg i
  if h.now < x.roseAt + 2 ^ 37 then x.rise else none

/-- Input i of a COMBINE is true at t, with WIN in 10 us (R210). -/
def Hub.inputTrue (h : Hub) (i win : Nat) (t : BitVec 36) : Bool :=
  let held : Bool := match h.riseOf i with
    | none => false
    | some u => decide (0 ≤ away t u ∧ away t u < win * 160000)
  h.recRuns i && ((h.rcg i).out || held)

/-- The inputs of COMBINE r that are true at t, by place. -/
def Hub.truthAt (h : Hub) (r : Nat) (t : BitVec 36) : BitVec 4 :=
  BitVec.ofNat 4 ((combInputs (h.reg (recReg r 0x14))).foldl
    (fun n u => if h.inputTrue u.2 (h.fld (recReg r 0x18) 0 16) t then n + 2 ^ u.1 else n) 0)

/-- COMBINEs that run and use recogniser i, ascending. -/
def Hub.combsOf (h : Hub) (i : Nat) : List Nat :=
  (List.range 128).filter (fun r => h.recRuns r && h.recKind r == 5 && (combInputs (h.reg (recReg r 0x14))).any (fun u => u.2 == i))

/-- A COMBINE re-evaluates at t; cause is the input that changed, or 0x7F (R210). The first argument sets its OUT. -/
def Hub.combineWith (out : Hub → Nat → Bool → Cause → Nat → Hub) (h : Hub) (r cause : Nat) (c : Cause) : Hub :=
  let h1 := h.recApply r
  let m := h1.truthAt r c.t
  let used := combInputs (h1.reg (recReg r 0x14))
  let new := if h1.bit (recReg r 4) 12 then m != 0 else used.all (fun u => m.getLsbD u.1)
  out (h1.setRcg r { h1.rcg r with truth := m }) r new c (m.toNat + cause * 256)

/-- OUT of recogniser r takes a value; report is a PEAKWIN's trigger (R203, R209 to R211). Inputs lie below their COMBINE, so the
first argument, the number of recognisers, bounds how far a change runs on. -/
def Hub.outTo : Nat → Bool → Hub → Nat → Bool → Cause → Nat → Hub
  | 0, _, h, _, _, _, _ => h
  | f + 1, report, h, r, new, c, val =>
    let x := h.rcg r
    let changed := new != x.out
    let h1 := if changed then
        h.setRcg r { x with out := new, rise := if new then some c.t else x.rise, roseAt := if new then h.now else x.roseAt }
      else h
    let peak := h.recKind r == 3
    let edge := h.fld (recReg r 4) 8 2
    let fires := if peak then report else changed && (edge == 2 || edge == (!new).toNat)
    let h2 := if fires then h1.trigger r c (if peak then val else val + new.toNat * 2 ^ 32) else h1
    if changed then
      (h2.combsOf r).foldl (fun g k => g.combineWith (Hub.outTo f false) k r c) h2
    else h2

/-- A COMBINE re-evaluates. -/
def Hub.combine (h : Hub) (r cause : Nat) (c : Cause) : Hub := h.combineWith (Hub.outTo 128 false) r cause c

/-! ### Windows (R205 to R209) -/

/-- A settling window settles: a PEAKWIN whose peak is at HI or above reports (R206, R209). -/
def Hub.settleWin (h : Hub) (r : Nat) (late : Bool) : Hub :=
  let x := h.rcg r
  match x.settling with
  | none => h
  | some w =>
    let h1 := h.setRcg r { x with settling := none }
    match w.peak with
    | none => h1
    | some (p, t, pos, sid, flg) =>
      if h.recKind r != 3 || decide (p < extWord (h.bit (recReg r 4) 7) (h.reg (recReg r 8))) then h1
      else
        let f : BitVec 4 := (flg &&& 5) ||| (if w.gap then 2 else 0)
        h1.outTo 128 true r true { t := t, sid := sid, pos := pos, flg := f } (v32 p + min w.samples 127 * 2 ^ 32 + late.toNat * 2 ^ 39)

/-- A TIME value in 1/16 ns. -/
def tickStated (t : BitVec 64) : BitVec 36 := stated (accInstant t) 0

/-- A window as an open edge makes it. -/
def openWindow (e : WinEdge) : Window := { open_ := e, close := none, closedAt := 0, peak := none, samples := 0, gap := false }

/-- An open edge reaches recogniser r (R203, R207). -/
def Hub.winOpen (h : Hub) (r : Nat) (e : WinEdge) : Hub :=
  if !h.recRuns r || !h.recGated r then h.bump (recReg r 0x3C) 16 8 1 else
  let h1 := if (h.rcg r).opened.isSome then (h.bump (recReg r 0x3C) 16 8 1).settleWin r false else h
  let h2 := h1.setRcg r { h1.rcg r with opened := some (openWindow e) }
  if h2.recKind r == 3 then h2.outTo 128 false r false (bareCause (tickStated e.tick)) 0 else h2

/-- The time since a tick stamped with a TIME value, in 1/64 ns. -/
def Hub.since (h : Hub) (tick : BitVec 64) : Nat := if before h.tb.acc tick then 0 else (h.tb.acc - tick).toNat / 2 ^ 26

/-- A close edge reaches recogniser r; SETTLE_MS runs from its tick (R206, R207). -/
def Hub.winClose (h : Hub) (r : Nat) (e : WinEdge) : Hub :=
  match (if h.recRuns r && h.recGated r then (h.rcg r).opened else none) with
  | none => h.bump (recReg r 0x3C) 16 8 1
  | some w =>
    let h1 := h.settleWin r false
    h1.setRcg r { h1.rcg r with opened := none, settling := some { w with close := some e, closedAt := h1.now - h1.since e.tick } }

/-- An edge leaves the list of edges on their way. -/
def Hub.takeEdge (h : Hub) (r : Nat) (opens : Bool) (e : WinEdge) : Hub := { h with winEdges := h.winEdges.erase (r, opens, e) }

def execWinOpen (r : Nat) (edge : WinEdge) (s : State) : Host.Outcome State Fault Refusal :=
  s.run (fun h => if r < 128 then ((h.takeEdge r true edge).winOpen r edge).acted else h.takeEdge r true edge)

def execWinClose (r : Nat) (edge : WinEdge) (s : State) : Host.Outcome State Fault Refusal :=
  s.run (fun h => if r < 128 then ((h.takeEdge r false edge).winClose r edge).acted else h.takeEdge r false edge)

/-- SETTLE_MS has passed since the close tick of a window (R206). -/
def Hub.settleOver (h : Hub) (r : Nat) (w : Window) : Bool := decide (w.closedAt + h.fld (recReg r 0x18) 16 8 * 64000000 ≤ h.now)

/-- SETTLE_TIMEOUT: a window still settling SETTLE_MS after its close tick settles (R206). -/
def execSettleTimeout (r : Nat) (s : State) : Host.Outcome State Fault Refusal :=
  s.run (fun h => if decide (r < 128) && (h.rcg r).settling.any (h.settleOver r) then (h.settleWin r true).acted else h)

/-! ### Samples (R200 to R204) -/

/-- A sample a recogniser takes: value, instant, position and slot. -/
structure Taken where
  x   : Int
  t   : BitVec 36
  pos : Option Nat
  slot : Nat := 0
deriving DecidableEq, Repr

/-- The instant of slot k of a record (R58, R201). -/
def slotStated (f : Flight) (k : Nat) : BitVec 36 :=
  match k, f.per with
  | 0, _ => recStated f.rcd
  | _, none => recStated f.rcd
  | _, some p => recStated f.rcd + (stated (f.t0 + BitVec.ofNat 72 (k * p)) 0 - stated f.t0 0)

/-- The position of slot k of a record bound to a domain, if it states one (R53, R58, R201). -/
def slotPos (f : Flight) (dom k : Nat) : Option Nat :=
  if f.rcd.pos = 0xFFFF then none
  else if k = 0 then some f.rcd.pos.toNat
  else if f.grid = 0 then none
  else some ((f.rcd.pos.toNat + k * f.grid) % (cycleOf dom / 65536))

/-- Slot k of a record as a sample, or none where it gives none (R200). -/
def Hub.sampleAt (h : Hub) (r : Nat) (f : Flight) (k : Nat) : Option Taken :=
  let sid := f.rcd.sid.toNat
  let fmt := h.fmt sid
  let w := slotWidth fmt
  let raw := (f.rcd.pay.toNat >>> (w * k)) % 2 ^ w
  if f.rcd.flg.getLsbD 3 || decide (k ≥ slotCount fmt) || (fmt != 0 && raw == emptyCode fmt) then none
  else
    let cfg := h.reg (recReg r 4)
    let v : Int := if cfg.getLsbD 7 then (raw : Int) else (BitVec.ofNat w raw).toInt
    let x := if cfg.getLsbD 10 && h.recKind r != 2 then (v.natAbs : Int) else v
    some { x := x, t := slotStated f k, pos := slotPos f (h.domain sid) k, slot := k }

/-- A sample lies inside a window (R205). -/
def Hub.insideWin (h : Hub) (byPos : Bool) (dom : Nat) (s : Taken) (w : Window) : Bool :=
  if byPos then
    match s.pos with
    | none => false
    | some p =>
      if dom != w.open_.dom then false else
      let l := cycleOf dom / 65536
      let d := posSub l p w.open_.pos
      match w.close with
      | some e => decide (d < posSub l e.pos w.open_.pos)
      | none =>
        match h.exactNow dom with
        | none => false
        | some now => decide (d ≤ posSub l (now / 65536) w.open_.pos)
  else
    let t : BitVec 64 := s.t.setWidth 64 <<< 28
    !before t w.open_.tick && (match w.close with
      | none => true
      | some e => before t e.tick)

/-- A settling window that does not take a sample settles at one stamped after its close edge (R206). -/
def settlesAt (byPos : Bool) (s : Taken) (w : Window) : Bool :=
  let t : BitVec 64 := s.t.setWidth 64 <<< 28
  match w.close with
  | none => false
  | some e => !before t e.tick && (!byPos || t != e.tick)

/-- A window takes a sample of a record (R209). -/
def Window.take (w : Window) (s : Taken) (r : Record) : Window :=
  let pos : Half := match s.pos with
    | none => 0xFFFF
    | some p => BitVec.ofNat 16 p
  let better := match w.peak with
    | none => true
    | some (p, _) => decide (s.x > p)
  { w with samples := w.samples + 1, gap := w.gap || r.flg.getLsbD 1,
           peak := if better then some (s.x, s.t, pos, r.sid, r.flg) else w.peak }

/-- SLOPE and COUNT start again (R204). -/
def Recog.clear (x : Recog) : Recog := { x with past := [], hits := [] }

/-- The OUT rule of a kind that samples drive (R203): the recogniser after the sample, its OUT, and VALUE; none where the sample is not
evaluated. -/
def Hub.kindRule (h : Hub) (r : Nat) (x : Recog) (v : Int) : Recog × Option (Bool × Nat) :=
  let cfg := h.reg (recReg r 4)
  let uns := cfg.getLsbD 7
  let hi := extWord uns (h.reg (recReg r 8))
  let lo := extWord uns (h.reg (recReg r 0xC))
  match bits cfg 0 3 with
  | 0 => (x, some (if v ≥ hi then true else if v < lo then false else x.out, v32 v))
  | 1 =>
    let hy : Int := (h.reg (recReg r 0x10)).toNat
    (x, some (if lo ≤ v ∧ v ≤ hi then true else if v < lo - hy ∨ v > hi + hy then false else x.out, v32 v))
  | 2 =>
    let k := bits cfg 16 4
    let y := { x with past := keep 16 (v :: x.past) }
    (match x.past[k]? with
      | none => (y, none)
      | some old =>
        let d0 := v - old
        let d := if cfg.getLsbD 10 then (d0.natAbs : Int) else d0
        (y, some (if d ≥ hi then true else if d < lo then false else x.out, v32 d)))
  | 4 =>
    let hit : Bool := match bits cfg 13 2 with
      | 0 => decide (v ≥ hi)
      | 1 => decide (v ≤ lo)
      | 2 => decide (lo ≤ v ∧ v ≤ hi)
      | _ => decide (v < lo ∨ v > hi)
    let l := keep (bits cfg 20 5 + 1) (hit :: x.hits)
    let n := (l.filter (fun b => b)).length
    ({ x with hits := l }, some (decide (n ≥ bits cfg 25 5 + 1), v32 v + n * 2 ^ 33))
  | _ => (x, none)

/-- The next sample a recogniser takes is evaluated: SLOPE needs K before it since EN or GAP, and the reserved kinds evaluate none (R203). -/
def Hub.evaluates (h : Hub) (r : Nat) : Bool :=
  match h.recKind r with
  | 2 => decide (h.fld (recReg r 4) 16 4 < (h.rcg r).past.length)
  | 6 => false
  | 7 => false
  | _ => true

/-- A sample that its windows let through is evaluated, unless HOLLOW's bound drops it (R202 to R204, R209, R215, R216). -/
def Hub.evalSample (h : Hub) (r : Nat) (f : Flight) (s : Taken) (inSettling inOpen : Bool) : Hub :=
  if h.pwr.state == 3 && decide (h.pwr.samples ≥ 4) then
    (h.bump (recReg r 0x40) 16 8 1).setRcg r { h.rcg r with dropped := true }
  else
    let h0 : Hub := if h.pwr.state == 3 then { h with pwr := { h.pwr with samples := h.pwr.samples + 1 } } else h
    let y := h0.rcg r
    let g := if y.dropped then h0.setRcg r { y.clear with dropped := false } else h0
    let h1 := if g.evaluates r then g.recApply r else g
    let x := h1.rcg r
    if h1.recKind r == 3 then
      h1.setRcg r { x with last := BitVec.ofNat 32 (v32 s.x),
                           settling := if inSettling then x.settling.map (fun w => w.take s f.rcd) else x.settling,
                           opened := if inOpen then x.opened.map (fun w => w.take s f.rcd) else x.opened }
    else
      match h1.kindRule r x s.x with
      | (y, none) => h1.setRcg r y
      | (y, some (out, val)) =>
        let c : Cause := { t := s.t, sid := f.rcd.sid, flg := f.rcd.flg &&& 7, slot := s.slot,
                           pos := (s.pos.map (fun p => BitVec.ofNat 16 p)).getD 0xFFFF }
        (h1.setRcg r { y with last := BitVec.ofNat 32 (v32 s.x) }).outTo 128 false r out c val

/-- A sample is judged against the windows of recogniser r, and evaluated if it passes (R205, R206). -/
def Hub.judgeSample (h : Hub) (r : Nat) (f : Flight) (s : Taken) : Hub :=
  if !h.recGated r then h.evalSample r f s false false else
  let byPos := h.bit (recReg r 4) 11
  let dom := h.domain f.rcd.sid.toNat
  let x := h.rcg r
  let foreign (w : Option Window) : Bool := match w with
    | none => false
    | some y => y.open_.dom != dom
  let inSet := x.settling.any (h.insideWin byPos dom s)
  let inOpen := x.opened.any (h.insideWin byPos dom s)
  let h1 := if byPos && (s.pos.isNone || foreign x.settling || foreign x.opened) then h.bump (recReg r 0x40) 0 16 1 else h
  let h2 := if !inSet && x.settling.any (settlesAt byPos s) then h1.settleWin r false else h1
  if inSet || inOpen then h2.evalSample r f s inSet inOpen else h2

/-- A record reaches recogniser r at stage 7 (R200, R202, R204). -/
def Hub.recTake (h : Hub) (r : Nat) (f : Flight) : Hub :=
  if !h.recRuns r || h.recKind r == 5 then h else
  let h1 := if f.rcd.flg.getLsbD 1 then h.setRcg r (h.rcg r).clear else h
  let sel := h1.fld (recReg r 4) 4 3
  let slots := if sel = 7 then List.range (slotCount (h1.fmt f.rcd.sid.toNat)) else [sel]
  slots.foldl (fun g k =>
    match g.sampleAt r f k with
    | none => g.bump (recReg r 0x40) 0 16 1
    | some s => g.judgeSample r f s) h1

/-- A record as a tap sees it that no record in flight stands behind: only its slot 0 has a stated instant. -/
def bareFlight (rcd : Record) : Flight :=
  { sid := rcd.sid.toNat, seq := 0, rcd := rcd, stage := .ready, t0 := (recStated rcd).setWidth 72 <<< 36, per := none, grid := 0,
    dest := 0, taps := [] }

/-- The triggers of a record act, unless a tap of it has still to take it (R211). -/
def Hub.actedFor (h : Hub) (f : Flight) : Hub :=
  if h.taps.any (fun y => y.2.sid == f.sid && y.2.seq == f.seq) then h else h.acted

/-- REC_SAMPLE: the record leaves the list of records at stage 7 if it waits there. Its triggers act once its last tap has taken it (R211). -/
def Hub.recSample (h : Hub) (r : Nat) (rcd : Record) : Hub :=
  match h.taps.find? (fun e => e.1 == r && e.2.rcd == rcd) with
  | some e => Hub.actedFor ({ h with taps := h.taps.erase e }.recTake r e.2) e.2
  | none => (h.recTake r (bareFlight rcd)).acted

def execRecSample (r : Nat) (rec : Record) (s : State) : Host.Outcome State Fault Refusal :=
  s.run (fun h => if r < 128 then h.recSample r rec else h)

/-- The instant at which WIN has run out for input k of COMBINE r, which is true by its hold alone, once that has come (R210). -/
def Hub.winOver (h : Hub) (r k : Nat) : Option (BitVec 36) :=
  match (combInputs (h.reg (recReg r 0x14))).find? (fun u => u.1 == k) with
  | none => none
  | some u =>
    match h.riseOf u.2 with
    | none => none
    | some t0 =>
      let t := t0 + BitVec.ofNat 36 (h.fld (recReg r 0x18) 0 16 * 160000)
      if h.recRuns r && h.recKind r == 5 && (h.rcg r).truth.getLsbD k && h.recRuns u.2 && !(h.rcg u.2).out && !before (tickStated h.tb.acc) t
      then some t else none

/-- COMBINE_WIN_EXPIRE: input k of COMBINE r stops being true because WIN has run out, stamped with that instant (R210). -/
def Hub.winExpire (h : Hub) (r k : Nat) : Hub :=
  match h.winOver r k with
  | none => h
  | some t => (h.combine r 0x7F (bareCause t)).acted

def execCombineWinExpire (r k : Nat) (s : State) : Host.Outcome State Fault Refusal :=
  s.run (fun h => if r < 128 then h.winExpire r k else h)

/-! ### EN and COMMIT (R216, R218) -/

/-- A recogniser begins as at EN: a COMBINE finds the inputs that are true then, so that a hold in force runs out (R203, R210). -/
def Hub.recStart (h : Hub) (r : Nat) : Hub :=
  let x := h.rcg r
  h.setRcg r { Recog.init with last := x.last, held := x.held, pending := x.pending,
                               truth := if h.recKind r = 5 then h.truthAt r (tickStated h.tb.acc) else 0 }

/-- REC_ENABLE: EN written 1 is checked and starts the recogniser afresh; written 0 it stops it, and an input of a COMBINE is false
at once (R203, R210, R216). (log 43: DEDUCED) -/
def Hub.recEnable (h : Hub) (r : Nat) (en : Bool) : Hub :=
  let on := h.bit (recReg r 0) 0
  if en then
    if on then h
    else if h.recOk r (fun off => h.reg (recReg r off)) then
      (h.setBit (recReg r 0) 0 true).recStart r
    else h.flag recErr 2 r
  else if !on then h
  else
    let h1 := ((h.setBit (recReg r 0) 0 false).recApply r)
    let h2 := h1.setRcg r { h1.rcg r with opened := none, settling := none }
    ((h2.combsOf r).foldl (fun g k => g.combine k r (bareCause (tickStated g.tb.acc))) h2).acted

def execRecEnable (r : Nat) (en : Bool) (s : State) : Host.Outcome State Fault Refusal :=
  s.run (fun h => if r < 128 then h.recEnable r en else h)

/-- REC_COMMIT (R216). -/
def Hub.recCommit (h : Hub) (r : Nat) : Hub :=
  if h.recOk r (fun off => h.seen (recReg r off)) then
    let h1 := (h.capture (recReg r 0) 0x80).setRcg r { h.rcg r with pending := true }
    if h1.bit (recReg r 0) 0 then h1 else h1.recApply r
  else ((h.discard (recReg r 0) 0x80).setRcg r { h.rcg r with pending := false }).flag recErr 2 r

def execRecCommit (r : Nat) (s : State) : Host.Outcome State Fault Refusal :=
  s.run (fun h => if r < 128 then h.recCommit r else h)

/-! ### Registers -/

/-- What a fabric read of a recogniser gives (R216). (log 110: DEDUCED) -/
def Hub.recRead (h : Hub) (r off : Nat) : Word :=
  let x := h.rcg r
  match off with
  | 0x30 => BitVec.ofNat 32 (x.out.toNat + 2 * x.opened.isSome.toNat + 4 * x.settling.isSome.toNat + 8 * x.pending.toNat
      + 16 * x.held.isSome.toNat)
  | 0x34 => x.last
  | 0x38 => BitVec.ofNat 32 (((x.opened.bind (fun w => w.peak)).map (fun p => v32 p.1)).getD 0)
  | _ => h.seen (recReg r off)

/-- A fabric write to a recogniser (R216). -/
def Hub.recWrite (h : Hub) (r off : Nat) (v : Word) : Hub :=
  if off = 0 then
    let h1 := if v.getLsbD 1 then h.recCommit r else h
    h1.recEnable r (v.getLsbD 0)
  else h.putReg recErr r (recReg r off) (h.bit (recReg r 0) 0) anyField v

end Sys2Proof.Machine
end

