-- ==== Sys2Proof/Machine/Ports.lean ====
section
/-! DEFINITION. Serial and two-wire ports (R149 to R180) and what a completion delivers (R190 to R193): attempts and retries, aborts,
bus clears, and the addressing of the hub's target logic. -/

namespace Sys2Proof.Machine

/-- SP_ERR and TW_ERR of a port (R154, R179). -/
def spErr (n : Nat) : ErrReg := ⟨spReg n 0x07C, 4, 16, 3⟩
def twErr (n : Nat) : ErrReg := ⟨twReg n 0x07C, 4, 16, 3⟩

/-! ### PORT cycles (R84, R85) -/

/-- The present beat: TIME value of its first tick, when that tick was, and the first PORT cycle at or after the present tick. -/
def Hub.beatBase (h : Hub) : BitVec 64 := h.tb.acc - BitVec.ofNat 64 h.tb.beat * h.tinc
/-- (log 44: DEDUCED) -/
def Hub.beatAt (h : Hub) : Nat := h.now - h.tb.beat * 256
/-- (log 44: DEDUCED) -/
def Hub.portCycle (h : Hub) : Nat := (8 * h.tb.beat + 4) / 5

/-- The instant of PORT cycle k counted from the beat that began at at_ with a TIME value (R84); with TIME ticks stopped since, from that beat on. -/
def Hub.portStamp (h : Hub) (base : BitVec 64) (at_ k : Nat) : Instant :=
  if h.tb.lines.isEmpty then accInstant base + BitVec.ofNat 72 (k * 5 * h.tinc.toNat * 32) else h.portInstant at_ k

/-- A number of PORT cycles in 1/64 ns. -/
def portUnits (k : Nat) : Nat := k * 160

/-! ### Reply strings (R190) -/

/-- The low w bits of a word, most significant first. -/
def bitsMsb (w v : Nat) : List Bool := (List.range w).map (fun i => v.testBit (w - 1 - i))

/-- The number whose bits these are, most significant first. -/
def ofMsb (l : List Bool) : Nat := l.foldl (fun n b => 2 * n + b.toNat) 0

/-- The bits of a reply string from ofs on; those past its end read as zero. -/
def field_ (l : List Bool) (ofs w : Nat) : Nat := ofMsb ((List.range w).map (fun i => l.getD (ofs + i) false))

/-- The value of a transaction, extended to 64 bits (R190). (log 46: DEDUCED) -/
def replyValue (t : Txn) (l : List Bool) : BitVec 64 :=
  let v := field_ l t.ofs t.width
  if t.unsig then BitVec.ofNat 64 v else (BitVec.ofNat t.width v).signExtend 64

/-! ### Serial frames (R150, R151, R153, R157) -/

/-- Fields of a serial format, from its six words. -/
def fmtBits (ws : List Word) (i lsb width : Nat) : Nat := bits (ws.getD i 0) lsb width

/-- SCLK edges of a phase of n bits. -/
def phaseEdges (n lanes : Nat) (dtr : Bool) : Nat := if dtr then n / 2 ^ lanes else 2 * (n / 2 ^ lanes)

/-- Width of a DATA word, and bits of DATA. -/
def wordWidth (ws : List Word) : Nat := 8 * (fmtBits ws 2 8 2 + 1)
def dataBits (ws : List Word) : Nat := fmtBits ws 2 0 7 * wordWidth ws

/-- SCLK edges of a frame. -/
def frameEdges (ws : List Word) : Nat :=
  phaseEdges (fmtBits ws 1 0 5) (fmtBits ws 1 5 2) (fmtBits ws 1 7 1 == 1)
    + phaseEdges (fmtBits ws 1 8 6) (fmtBits ws 1 14 2) (fmtBits ws 1 16 1 == 1) + 2 * fmtBits ws 1 17 5
    + phaseEdges (dataBits ws) (fmtBits ws 1 22 2) (fmtBits ws 1 24 1 == 1)

/-- HALF, LEAD and TRAIL. -/
def fmtHalf (ws : List Word) : Nat := fmtBits ws 0 4 8
def fmtLead (ws : List Word) : Nat := fmtBits ws 0 12 5
def fmtTrail (ws : List Word) : Nat := fmtBits ws 0 17 5

/-- PORT cycles from SEN_N falling to SEN_N rising. -/
def frameCycles (ws : List Word) : Nat :=
  fmtLead ws + (if frameEdges ws = 0 then 0 else (frameEdges ws - 1) * fmtHalf ws) + fmtTrail ws

/-- PORT cycles from SEN_N falling to the reference event (R84, R151). -/
def refCycles (ws : List Word) (ref : Nat) : Nat :=
  if ref = 0 ∨ frameEdges ws < ref then 0 else fmtLead ws + (ref - 1) * fmtHalf ws

/-- DATA is output: more than one lane, and DIR is 1 (R151). -/
def dataOut (ws : List Word) : Bool := fmtBits ws 1 22 2 != 0 && fmtBits ws 2 11 1 == 1

/-- The words of format k in force. -/
def Hub.spFormat (h : Hub) (n k : Nat) : List Word := (List.range 6).map (fun i => h.reg (spReg n (0x100 + 0x20 * k + 4 * i)))

/-! ### What a frame puts on the wire (R149 to R153) -/

/-- A bit-time of a frame: DTR or SDR, whether it is DATA, whether the hub drives its lanes, and the levels from DQ0 upward. -/
structure BitTime where
  dtr    : Bool
  data   : Bool
  drives : Bool
  bits   : List Bool
deriving DecidableEq, Repr

/-- n bits of a number in groups of one bit a lane, the most significant group first unless lsb is set; within a group the most significant bit
travels on the highest lane (R149, R151). -/
def laneBits (lanes n v : Nat) (lsb : Bool) : List (List Bool) :=
  (List.range (n / lanes)).map (fun k => (List.range lanes).map (fun i => v.testBit (if lsb then lanes * k + i else n - lanes * (k + 1) + i)))

/-- The bit-times of a frame in order: CMD, ADDR, DUMMY and DATA (R151, R152). -/
def bitTimes (ws out : List Word) : List BitTime :=
  let dtr (i : Nat) : Bool := fmtBits ws 1 i 1 == 1
  let part (d data drives : Bool) (l : List (List Bool)) : List BitTime := l.map (fun b => { dtr := d, data := data, drives := drives, bits := b })
  let lanes (i : Nat) : Nat := 2 ^ fmtBits ws 1 i 2
  part (dtr 7) false true (laneBits (lanes 5) (fmtBits ws 1 0 5) (fmtBits ws 4 0 16) false)
    ++ part (dtr 16) false true (laneBits (lanes 14) (fmtBits ws 1 8 6) (fmtBits ws 5 0 32) false)
    ++ List.replicate (fmtBits ws 1 17 5) { dtr := false, data := false, drives := false, bits := [] }
    ++ (List.range (fmtBits ws 2 0 7)).flatMap (fun i => part (dtr 24) true (lanes 22 == 1 || dataOut ws)
        (laneBits (lanes 22) (wordWidth ws) (out.getD i 0).toNat (fmtBits ws 2 10 1 == 1)))

/-- When each bit-time launches and when it is sampled, in 1/64 ns from the fall of SEN_N, from edge j on: SDR samples at the edge MODE names, DLY PORT
cycles later, and launches at the one before, or as SEN_N falls; DTR centres a bit on its edge, and its input is sampled a quarter period after the
edge DQS returns (R150, R152). (log 135: DESIGN CHOICE) -/
def wireTimes (ws : List Word) : Nat → List BitTime → List (Nat × Nat × BitTime)
  | _, [] => []
  | j, b :: r =>
    let half := portUnits (fmtHalf ws)
    let edge (k : Nat) : Nat := portUnits (fmtLead ws) + k * half
    let late := portUnits (fmtBits ws 0 2 2)
    if b.dtr then (edge j - half / 2, edge j + half / 2, b) :: wireTimes ws (j + 1) r
    else if fmtBits ws 0 0 2 % 2 = 0 then (if j = 0 then 0 else edge (j - 1), edge j + late, b) :: wireTimes ws (j + 2) r
    else (edge j, edge (j + 1) + late, b) :: wireTimes ws (j + 2) r

/-- SCLK edges of a frame before a time counted from the fall of SEN_N. -/
def edgesBefore (ws : List Word) (u : Nat) : Nat :=
  let lead := portUnits (fmtLead ws)
  let half := max 1 (portUnits (fmtHalf ws))
  if u ≤ lead then 0 else min (frameEdges ws) ((u - lead + half - 1) / half)

/-- The code on SEL[2:0] and the idle level of SCLK at a time (R150, R153). -/
def SerialPort.selAt (x : SerialPort) (u : Nat) : Nat := if u < x.change then x.selOld else x.sel
def SerialPort.clkAt (x : SerialPort) (u : Nat) : Bool := if u < x.change then x.clkOld else x.sclk

/-- When SEN_N falls for the frame under way, or for the next attempt. -/
def SerialPort.fall (x : SerialPort) : Nat := x.at_ + portUnits x.sen

/-- The levels on the pins of port n now (R149 to R153, R158). (log 135: DESIGN CHOICE) -/
def Hub.spPins (h : Hub) (n : Nat) : SpPins :=
  let x := h.spt n
  let ws := x.words
  let u := h.now - x.fall
  let idle := x.clkAt h.now
  if x.phase = .frame ∧ x.fall ≤ h.now ∧ u < portUnits (frameCycles ws) then
    let wire := wireTimes ws 0 (bitTimes ws x.out)
    let here := ((wire.filter (fun w => decide (w.1 ≤ u))).getLast?).map (fun w => w.2.2)
    let level := ((here.filter (fun b => b.drives)).map (fun b => b.bits)).getD []
    { senN := false, sel := x.selAt h.now, sclk := idle != (edgesBefore ws (u + 1) % 2 == 1), sdo := decide (2 ≤ n) && level.headD false,
      dq := if n < 2 then level else [], dqsLow := n < 2 && here.any (fun b => b.data && b.dtr && dataOut ws),
      taken := (wire.filter (fun w => w.2.2.data && decide (w.2.1 ≤ u))).length }
  else
    let low := decide (h.now < x.rise)
    { senN := !low, sel := x.selAt h.now, sclk := idle != decide (h.now < x.back), sdo := low && x.pins.sdo, dq := if low then x.pins.dq else [],
      dqsLow := low && x.pins.dqsLow, taken := x.pins.taken }

/-- What the pins of every serial port show in this tick. -/
def Hub.pinsNow (h : Hub) : Hub := h.sps.foldl (fun g e => g.setSpt e.1 { g.spt e.1 with pins := h.spPins e.1 }) h

/-- PORT cycle, from a beat at time at_, of an absolute time: the first cycle at or after it. -/
def cycleOf_ (at_ t : Nat) : Nat := (t - at_ + 159) / 160

/-- A serial port takes a transaction: the code and the idle level change no earlier than the PORT cycle after SEN_N rose (R150, R153, R156, R161). (log 44: DEDUCED) -/
def Hub.spStart (h : Hub) (n : Nat) (t : Txn) : Hub :=
  if !h.bit (spReg n 0) 0 then h.portEnd n 3 else
  let g := h.spApply n
  let x := g.spt n
  let ws := g.spFormat n t.fmt
  let q := g.portCycle
  let high := cycleOf_ g.beatAt (x.rise + portUnits (g.fld (spReg n 4) 8 5))
  let change := max q (cycleOf_ g.beatAt (x.rise + portUnits 1))
  let sen := if t.sel = x.selAt g.now then max q high else max (change + g.fld (spReg n 4) 0 5) high
  g.setSpt n { x with phase := .frame, base := g.beatBase, at_ := g.beatAt, sen := sen, sel := t.sel, fmt := t.fmt, tries := 0,
                      sclk := decide (fmtBits ws 0 0 2 ≥ 2), change := g.beatAt + portUnits change, selOld := x.selAt g.now, clkOld := x.clkAt g.now,
                      words := ws, out := (List.range (fmtBits ws 2 0 7)).map (fun i => g.reg (spReg n (0x400 + 0x100 * t.fmt + 4 * i))), data := [],
                      status := 0 }

/-- A trigger of the entry behind a transaction is held (R184). -/
def Hub.heldTrigger (h : Hub) (t : Txn) : Bool :=
  match t.src with
  | .entry i => (h.txe i).held.isSome
  | _ => false

/-- The target of a transaction is detached (R158, R165, R198). -/
def Hub.detached (h : Hub) (t : Txn) : Bool :=
  match t.src with
  | .entry i => h.entryAbsent i
  | _ => false

/-- No attempt follows the one under way: the next trigger is held, or the target has gone (R157, R158, R166). -/
def Hub.noMore (h : Hub) (t : Txn) : Bool := h.heldTrigger t || h.detached t

/-- SP_FRAME_END: the frame's incoming words, LSB_FIRST applied (R157, R158). (log 46: DEDUCED) -/
def Hub.spFrameEnd (h : Hub) (n : Nat) (words : List Word) : Hub :=
  let x := h.spt n
  match x.phase, (h.pq n).active with
  | .frame, some t =>
    let ws := x.words
    let w := wordWidth ws
    let count := if dataOut ws then 0 else fmtBits ws 2 0 7
    let got := (List.range count).map (fun i => BitVec.ofNat 32 ((words.getD i 0).toNat % 2 ^ w))
    let h1 := (got.zipIdx).foldl (fun g e => g.setReg (spReg n (0xC00 + 4 * e.2)) e.1) h
    let stop := x.sen + frameCycles ws
    let y := { x with rise := x.at_ + portUnits stop, data := got }
    if fmtBits ws 3 0 1 = 0 then (h1.setSpt n y).portEnd n 0
    else
      let st := (((got.getD (fmtBits ws 3 1 6) 0).toNat) >>> fmtBits ws 3 8 5) % 2 ^ (fmtBits ws 3 16 4 + 1)
      if st ≠ 0 then (h1.setSpt n { y with status := BitVec.ofNat 16 st }).portEnd n 0
      else if x.tries < fmtBits ws 3 20 4 ∧ !h1.noMore t then
        h1.setSpt n { y with phase := .wait, sen := stop + max (h1.fld (spReg n 4) 8 5) (40 * fmtBits ws 3 24 8) }
      else (h1.setSpt n y).portEnd n 1
  | _, _ => h

def execSpFrameEnd (n : Nat) (words : List Word) (s : State) : Host.Outcome State Fault Refusal :=
  s.run (fun h => if n < 16 then h.spFrameEnd n words else h)

/-- SP_RETRY_WAIT_END: the next attempt starts in the PORT cycle its wait ends (R84, R157). -/
def Hub.spRetry (h : Hub) (n : Nat) : Hub :=
  let x := h.spt n
  if x.phase = .wait then h.setSpt n { x with phase := .frame, tries := x.tries + 1 } else h

def execSpRetryWaitEnd (n : Nat) (s : State) : Host.Outcome State Fault Refusal :=
  s.run (fun h => if n < 16 then h.spRetry n else h)

/-- The transaction under way has no frame: SEN_N stays high, and a code not yet changed stays (R158). -/
def SerialPort.unbegun (x : SerialPort) (now : Nat) : SerialPort := { x with sel := x.selAt now, sclk := x.clkAt now, change := 0 }

/-- A frame that has begun is cut in PORT cycle c: SCLK returns to its idle level at the next edge, SDO is low and DQ released, and SEN_N rises TRAIL
after the last edge, or after the cut if there was none (R158). -/
def SerialPort.cutAt (x : SerialPort) (c : Nat) : SerialPort :=
  let ws := x.words
  let k := edgesBefore ws (c - x.fall)
  let edge (j : Nat) : Nat := x.fall + portUnits (fmtLead ws + j * fmtHalf ws)
  let last := if k % 2 = 1 then edge k else edge (k - 1)
  { x with rise := if k = 0 then c + portUnits (fmtTrail ws) else max c (last + portUnits (fmtTrail ws)),
           back := if k % 2 = 1 then edge k else 0, pins := { x.pins with sdo := false, dq := [], dqsLow := false } }

/-- The transaction under way ends with CUT in the PORT cycle at or after now; its frame is cut if it has begun (R158). -/
def Hub.spCut (h : Hub) (n : Nat) : Hub :=
  let x := h.spt n
  let y := if x.phase ≠ .frame then x
    else if x.fall ≤ h.now then x.cutAt (h.beatAt + portUnits h.portCycle) else x.unbegun h.now
  (h.setSpt n y).portEnd n 2

/-- DQS_TIMEOUT: a DTR input frame of SP0 or SP1 misses a DQS edge (R152). -/
def Hub.dqsTimeout (h : Hub) (n : Nat) : Hub :=
  let x := h.spt n
  if n < 2 ∧ x.phase = .frame ∧ fmtBits x.words 1 24 1 = 1 ∧ fmtBits x.words 2 0 7 ≠ 0 ∧ !dataOut x.words then h.spCut n else h

def execDqsTimeout (n : Nat) (s : State) : Host.Outcome State Fault Refusal := s.run (fun h => h.dqsTimeout n)

/-- SP_ABORT: a transaction in progress ends with CUT (R158). -/
def Hub.spAbort (h : Hub) (n : Nat) : Hub :=
  match (h.spt n).phase with
  | .frame => h.spCut n
  | .wait => h.spCut n
  | _ => h

def execSpAbort (n : Nat) (s : State) : Host.Outcome State Fault Refusal :=
  s.run (fun h => if n < 16 then h.spAbort n else h)

/-- SP_ENABLE (R154, R161): a frame in progress finishes. A commit that waits in an idle or disabled port applies at once (R156). -/
def Hub.spEnable (h : Hub) (n : Nat) (en : Bool) : Hub :=
  let h1 := h.setBit (spReg n 0) 0 en
  if en then h1 else h1.spApply n

def execSpEnable (n : Nat) (en : Bool) (s : State) : Host.Outcome State Fault Refusal :=
  s.run (fun h => if n < 16 then h.spEnable n en else h)

/-- The checks of R155 on a format of port n. -/
def spFormatOk (n : Nat) (ws : List Word) : Bool :=
  let unit (lanes dtr : Nat) : Nat := 2 ^ lanes * (dtr + 1)
  let cmd := fmtBits ws 1 0 5
  let addr := fmtBits ws 1 8 6
  let data := dataBits ws
  let oneSdr (len lanes dtr : Nat) : Bool := len != 0 && lanes == 0 && dtr == 0
  let dl := fmtBits ws 1 22 2
  let sdrIn := oneSdr cmd (fmtBits ws 1 5 2) (fmtBits ws 1 7 1) || oneSdr addr (fmtBits ws 1 14 2) (fmtBits ws 1 16 1)
    || oneSdr data dl (fmtBits ws 1 24 1) || (data != 0 && fmtBits ws 1 24 1 == 0 && !dataOut ws)
  let stat := fmtBits ws 3 0 1 == 1
  cmd % unit (fmtBits ws 1 5 2) (fmtBits ws 1 7 1) == 0 && addr % unit (fmtBits ws 1 14 2) (fmtBits ws 1 16 1) == 0
    && data % unit dl (fmtBits ws 1 24 1) == 0
    && !(decide (n < 2) && fmtHalf ws == 1 && sdrIn)
    && !(data != 0 && dl != 0 && !dataOut ws && fmtBits ws 1 17 5 == 0)
    && !(stat && (decide (fmtBits ws 3 1 6 ≥ fmtBits ws 2 0 7) || decide (fmtBits ws 3 8 5 + fmtBits ws 3 16 4 + 1 > wordWidth ws) || dataOut ws))

/-- SP_COMMIT (R155, R156). (log 110: DEDUCED) -/
def Hub.spCommit (h : Hub) (n : Nat) : Hub :=
  let pend (k : Nat) : List Word := (List.range 6).map (fun i => h.seen (spReg n (0x100 + 0x20 * k + 4 * i)))
  match (List.range 8).find? (fun k => !spFormatOk n (pend k)) with
  | some k => ((h.discard (spReg n 0) 0x1000).setSpt n { h.spt n with pending := false }).flag (spErr n) 2 k
  | none =>
    let h1 := (h.capture (spReg n 0) 0x1000).setSpt n { h.spt n with pending := true }
    if (h1.spt n).phase = .idle ∨ !h1.bit (spReg n 0) 0 then h1.spApply n else h1

def execSpCommit (n : Nat) (s : State) : Host.Outcome State Fault Refusal :=
  s.run (fun h => if n < 16 then h.spCommit n else h)

/-! ### Two-wire frames (R164 to R171) -/

/-- Fields of a two-wire format, from its four words. -/
def twf (ws : List Word) (i lsb width : Nat) : Nat := bits (ws.getD i 0) lsb width

/-- The words of format k in force. -/
def Hub.twFormat (h : Hub) (n k : Nat) : List Word := (List.range 4).map (fun i => h.reg (twReg n (0x100 + 0x20 * k + 4 * i)))

/-- CRC-8 of SMBus: polynomial x^8 + x^2 + x + 1, initial value 0 (R164). -/
def crc8Step (c : Byte) : Nat → Byte
  | 0 => c
  | n + 1 => crc8Step (if c.msb then (c <<< 1) ^^^ 7 else c <<< 1) n
/-- (log 48: PRESUMED) -/
def crc8 (l : List Byte) : Byte := l.foldl (fun c b => crc8Step (c ^^^ b) 8) 0

/-- The address bytes of a direction: one, or two for a 10-bit address written, of which a read repeats the first. (log 48: PRESUMED) -/
def addrBytes (ten rd : Bool) (a : Nat) : List Byte :=
  if ten then
    let first := 0xF0 + (a / 256) % 4 * 2
    if rd then [BitVec.ofNat 8 (first + 1)] else [BitVec.ofNat 8 first, BitVec.ofNat 8 a]
  else [BitVec.ofNat 8 (a % 128 * 2 + rd.toNat)]

/-- The bytes a frame's PEC covers, in the order of the wire (R164). (log 48: PRESUMED) -/
def pecBytes (ws : List Word) (a : Nat) (got : List Byte) : List Byte :=
  let ten := twf ws 0 0 1 == 1
  let wr := twf ws 0 4 4
  let rd := twf ws 0 8 6
  let out := (List.range wr).map (fun i => BitVec.ofNat 8 (twf ws (1 + i / 4) (8 * (i % 4)) 8))
  let head := if wr = 0 ∧ rd ≠ 0 ∧ !ten then [] else addrBytes ten false a
  head ++ out ++ (if rd = 0 then [] else addrBytes ten true a ++ got)

/-- TBUF in 1/64 ns. -/
def Hub.tbuf (h : Hub) (n : Nat) : Nat := portUnits (h.fld (twReg n 0x018) 16 16)

/-- An attempt begins with its START (R163, R169). (log 45: DEDUCED) -/
def Hub.twAttempt (h : Hub) (n : Nat) : Hub :=
  let g := h.twApply n
  let x := g.twt n
  let k := (((g.pq (16 + n)).active).map (fun t => t.fmt)).getD x.fmt
  g.setTwt n { x with phase := .frame, base := g.beatBase, at_ := g.beatAt, busy := true, freeAt := 0, fmt := k,
                      words := if x.words.isEmpty then g.twFormat n k else x.words }

/-- A two-wire port takes a transaction (R165, R169, R171). (log 45: DEDUCED) -/
def Hub.twStart (h : Hub) (n : Nat) : Hub :=
  let x := { h.twt n with tries := 0, words := [], nacks := 0, arbs := 0, waits := 0, last := 0, hold := 0, data := [],
                          status := 0 }
  let h1 := h.setTwt n x
  if !h.bit (twReg n 0) 0 then h1.portEnd (16 + n) 3
  else if x.stuck then h1.portEnd (16 + n) 7
  else if h.bit (twReg n 4) 0 && x.busy then h1.setTwt n { x with phase := .wait }
  else h1.twAttempt n

/-- The wait before the next attempt, after one that ended with a code (R166). -/
def Hub.twWait (h : Hub) (n : Nat) (x : TwoWirePort) (code : Nat) : Hub :=
  (h.setTwt n { x with phase := .wait, last := code, hold := twf x.words 0 24 8 * 6400 }).twRest n

/-- A read that completed OK: its bytes go to TW_LASTIN, unless its target has gone (R165, R179). -/
def Hub.twOk (h : Hub) (n start rstart : Nat) (got : List Byte) (status : Half) : Hub :=
  let kept := if (h.pq (16 + n)).active.any h.detached then [] else got
  let h1 := (kept.zipIdx).foldl (fun g e => g.setFld (twReg n (0xC00 + 4 * (e.2 / 4))) (8 * (e.2 % 4)) 8 e.1.toNat) h
  (h1.setTwt n { h1.twt n with start := start, rstart := rstart, data := got, status := status }).portEnd (16 + n) 0

/-- A read whose PEC has passed, if it has one: OK, unless its status field is all zeros, which is retried (R166). -/
def Hub.twRead_ (h : Hub) (n start rstart : Nat) (got : List Byte) (more : Bool) : Hub :=
  let x := h.twt n
  let ws := x.words
  if twf ws 3 0 1 = 0 then h.twOk n start rstart got 0
  else
    let b := (got.getD (twf ws 3 1 5) 0).toNat
    if (b >>> twf ws 3 8 3) % 2 ^ (twf ws 3 12 3 + 1) ≠ 0 then h.twOk n start rstart got (BitVec.ofNat 16 b)
    else if more && decide (x.waits < twf ws 3 16 4) then h.twWait n { x with waits := x.waits + 1 } 1
    else h.portEnd (16 + n) 1

/-- The PEC byte of a read matches, or the format has none (R164). -/
def pecPassed (ws : List Word) (a : Nat) (got : List Byte) (pec : Option Byte) : Bool :=
  twf ws 0 2 1 == 0 || twf ws 0 8 6 == 0 || pec == some (crc8 (pecBytes ws a got))

/-- TW_FRAME_END (R164 to R166). (log 45: DEDUCED) (log 47: DEDUCED) -/
def Hub.twFrameEnd (h : Hub) (n : Nat) (f : TwFrame) : Hub :=
  let x0 := h.twt n
  match x0.phase, (h.pq (16 + n)).active with
  | .frame, some t =>
    let x := { x0 with freeAt := h.now + h.tbuf n }
    let h1 := h.setTwt n x
    let ws := x.words
    let more := !h.noMore t
    match f.result with
    | .nack =>
      if more && decide (x.nacks < twf ws 0 16 4) then h1.twWait n { x with nacks := x.nacks + 1 } 4 else h1.portEnd (16 + n) 4
    | .done pec =>
      let got := keep (twf ws 0 8 6) f.bytes
      if pecPassed ws t.addr got pec then h1.twRead_ n f.start f.rstart got more else h1.portEnd (16 + n) 8
  | _, _ => h

def execTwFrameEnd (n : Nat) (f : TwFrame) (s : State) : Host.Outcome State Fault Refusal :=
  s.run (fun h => if n < 8 then h.twFrameEnd n f else h)

/-- ARBITRATION_LOST: only a port with MULTI at 1 arbitrates. A loss in the NACK after the last read byte leaves a read whose PEC has passed as it is
(R166, R170). (log 47: DEDUCED) -/
def Hub.arbLost (h : Hub) (n : Nat) (p : ArbPoint) : Hub :=
  let x0 := h.twt n
  match (if h.bit (twReg n 4) 0 then x0.phase else .idle), (h.pq (16 + n)).active with
  | .frame, some t =>
    let x := { x0 with busy := true, freeAt := 0 }
    let h1 := h.setTwt n x
    let more := !h.noMore t
    let lost := if more && decide (x.arbs < twf x.words 0 20 4) then h1.twWait n { x with arbs := x.arbs + 1 } 5 else h1.portEnd (16 + n) 5
    match p with
    | .lastNack start rstart bs pec =>
      let got := keep (twf x.words 0 8 6) bs
      if pecPassed x.words t.addr got pec then h1.twRead_ n start rstart got more else lost
    | .early => lost
  | _, _ => h

def execArbitrationLost (n : Nat) (at_ : ArbPoint) (s : State) : Host.Outcome State Fault Refusal :=
  s.run (fun h => if n < 8 then h.arbLost n at_ else h)

/-- TW_SCL_TIMEOUT: the STOP waits until SCL reads high, and the bus stays busy until BUS_FREE tells that it followed (R170). -/
def Hub.twSclTimeout (h : Hub) (n : Nat) : Hub :=
  let x := h.twt n
  if x.phase = .frame ∧ h.bit (twReg n 4) 1 then (h.setTwt n { x with freeAt := 0 }).portEnd (16 + n) 6 else h

def execTwSclTimeout (n : Nat) (s : State) : Host.Outcome State Fault Refusal :=
  s.run (fun h => if n < 8 then h.twSclTimeout n else h)

/-- BUS_FREE: a frame that waits for the bus begins, and the STUCK state ends (R169, R171). -/
def Hub.busFree (h : Hub) (n : Nat) : Hub :=
  let x := h.twt n
  if x.phase = .frame then h else
  let h1 := (h.setTwt n { x with busy := false, freeAt := h.now, stuck := false, tgt := none }).twRest n
  if x.phase = .wait ∧ x.last = 0 then h1.twAttempt n else h1

def execBusFree (n : Nat) (s : State) : Host.Outcome State Fault Refusal :=
  s.run (fun h => if n < 8 then h.busFree n else h)

/-- TW_RETRY_WAIT_END: the next attempt begins, the bus being free (R166, R169). -/
def Hub.twRetry (h : Hub) (n : Nat) : Hub :=
  let x := h.twt n
  if x.phase = .wait ∧ !x.busy ∧ !x.stuck then
    (h.setTwt n { x with tries := if x.last = 0 then x.tries else x.tries + 1 }).twAttempt n
  else h

def execTwRetryWaitEnd (n : Nat) (s : State) : Host.Outcome State Fault Refusal :=
  s.run (fun h => if n < 8 then h.twRetry n else h)

/-- A bus clear fails: the STUCK state, which lasts until both lines read high, and in which a transaction that waits completes too (R171). (log 49: DEDUCED) -/
def Hub.twStick (h : Hub) (n : Nat) : Hub :=
  let h1 := ((h.setTwt n { h.twt n with stuck := true, freeAt := 0 }).flag (twErr n) 3 0).health 0x31 n 0x83 1
  if (h.twt n).phase = .wait ∨ (h.twt n).phase = .frame then h1.portEnd (16 + n) 7 else h1

/-- BUSCLR: ignored while a frame is in progress; else it tells by SDA at the end whether its STOP succeeds (R171). (log 49: DEDUCED) -/
def Hub.busclr (h : Hub) (n : Nat) (sdaHigh : Bool) : Hub :=
  let x := h.twt n
  if x.inFrame then h.flag (twErr n) 0 0
  else if sdaHigh then h.setTwt n { x with stuck := false, busy := true, freeAt := h.now + h.tbuf n }
  else h.twStick n

def execBusclr (n : Nat) (sdaHigh : Bool) (s : State) : Host.Outcome State Fault Refusal :=
  s.run (fun h => if n < 8 then h.busclr n sdaHigh else h)

/-- AUTO_BUS_CLEAR: SDA has read low for TIMEOUT_MS where a frame was about to begin (R171). -/
def Hub.autoClear (h : Hub) (n : Nat) (sdaHigh : Bool) : Hub :=
  let x := h.twt n
  if !(x.phase = .frame ∨ x.phase = .wait) ∨ x.tgt.isSome then h
  else if !h.bit (twReg n 4) 2 then h.portEnd (16 + n) 7
  else if sdaHigh then h.twAttempt n
  else h.twStick n

def execAutoBusClear (n : Nat) (sdaHigh : Bool) (s : State) : Host.Outcome State Fault Refusal :=
  s.run (fun h => if n < 8 then h.autoClear n sdaHigh else h)

/-- TW_ABORT (R167). -/
def Hub.twAbort (h : Hub) (n : Nat) : Hub :=
  let x := h.twt n
  match x.phase with
  | .frame => (h.setTwt n { x with freeAt := h.now + h.tbuf n }).portEnd (16 + n) 2
  | .wait => h.portEnd (16 + n) 2
  | _ => h

def execTwAbort (n : Nat) (s : State) : Host.Outcome State Fault Refusal :=
  s.run (fun h => if n < 8 then h.twAbort n else h)

/-- TW_CTRL_ENABLE (R179): a transaction in progress finishes. -/
def execTwCtrlEnable (n : Nat) (en : Bool) (s : State) : Host.Outcome State Fault Refusal :=
  s.run (fun h => if n < 8 then h.setBit (twReg n 0) 0 en else h)

/-- The checks of R178 and R180: the format that fails, if any. -/
def Hub.twCheck (h : Hub) (n : Nat) : Option Nat :=
  let r (off lsb w : Nat) : Nat := h.seenFld (twReg n off) lsb w
  let tlow := r 0x010 0 16
  let times := [tlow, r 0x010 16 16, r 0x014 0 16, r 0x014 16 16, r 0x018 0 16, r 0x018 16 16, r 0x01C 0 10, r 0x01C 16 10, r 0x01C 26 6]
  let bad (k : Nat) : Bool :=
    let f (off lsb w : Nat) : Nat := r (0x100 + 0x20 * k + off) lsb w
    let wr := f 0 4 4
    let rd := f 0 8 6
    (f 0 1 1 == 1 && (wr == 0 || rd == 0)) || (f 0 2 1 == 1 && wr == 0 && rd == 0)
      || (f 0xC 0 1 == 1 && (decide (f 0xC 1 5 ≥ rd) || decide (f 0xC 8 3 + f 0xC 12 3 > 7)))
  if tlow < r 0x01C 0 10 + r 0x01C 16 10 ∨ r 0x010 16 16 < 4 ∨ times.contains 0 then some 0
  else (List.range 8).find? bad

/-- TW_COMMIT (R163, R178, R180). -/
def Hub.twCommit (h : Hub) (n : Nat) : Hub :=
  match h.twCheck n with
  | some k => ((h.discard (twReg n 0) 0x1000).setTwt n { h.twt n with pending := false }).flag (twErr n) 2 k
  | none =>
    let h1 := (h.capture (twReg n 0) 0x1000).setTwt n { h.twt n with pending := true }
    if (h1.twt n).inFrame then h1 else h1.twApply n

def execTwCommit (n : Nat) (s : State) : Host.Outcome State Fault Refusal :=
  s.run (fun h => if n < 8 then h.twCommit n else h)

/-! ### Transactions (R184, R189 to R193) -/

/-- Place among transactions whose triggers fell due together: entries ascending, then probes, then flash frames (R189). (log 136: DESIGN CHOICE) -/
def TxnSrc.place : TxnSrc → Nat
  | .entry i => i
  | .probe j => 128 + j
  | .flash => 192

/-- One transaction goes ahead of another: the higher class, then the earlier trigger, then the place (R189). -/
def Txn.ahead (u t : Txn) : Bool :=
  u.cls > t.cls || (u.cls == t.cls && (u.at_ < t.at_ || (u.at_ == t.at_ && (u.src.place < t.src.place || (u.src == t.src && u.seq < t.seq)))))

/-- The transaction a port starts next (R189). -/
def nextTxn : List Txn → Option Txn
  | [] => none
  | t :: r =>
    match nextTxn r with
    | none => some t
    | some u => if u.ahead t then some u else some t

/-- A flash frame of Mbonik that waits enters SP0's queue once there is a place, one at a time (R159, R184). (log 136: DESIGN CHOICE) -/
def Hub.flashNext (h : Hub) : Hub :=
  let q := h.pq 0
  if h.flashDue = 0 || 16 ≤ q.waiting.length || q.waiting.any (fun t => t.src == .flash) || q.active.any (fun t => t.src == .flash) then h
  else { h with flashDue := h.flashDue - 1, seq := h.seq + 1 }.enqueue 0
    { src := .flash, cls := 0, seq := h.seq, at_ := h.now, fmt := 7, sel := 0, addr := 0, ref := 0, ofs := 0, width := 32, unsig := true, le := false,
      per := none }

/-- Mbonik has a frame for the boot flash. -/
def Hub.flashFrame (h : Hub) : Hub := Hub.flashNext { h with flashDue := h.flashDue + 1 }

/-- Probe j's frame enters its port's queue, or waits for a place (R184, R196). -/
def Hub.probeQueue (h : Hub) (j p : Nat) : Hub :=
  if (h.pq p).waiting.length ≥ 16 then h.setPrb j { h.prb j with waiting := true }
  else (({ h with seq := h.seq + 1 }).setPrb j { h.prb j with waiting := false, queued := true }).enqueue p (h.probeTxn j)

/-- A place in a port's queue has become free: the held trigger that fell due first takes it, else a probe's frame (R184, R196). -/
def Hub.accept (h : Hub) (p : Nat) : Hub :=
  if (h.pq p).waiting.length ≥ 16 then h else
  let held := (List.range 128).filterMap (fun i =>
    let x := h.txe i
    if h.txPort i == p && !x.queued && !x.active && !x.spaced then x.held.map (fun t => (i, t)) else none)
  match nextTxn (held.map (fun e => { e.2 with cls := 0 })) with
  | some u =>
    match held.find? (fun e => e.2.seq == u.seq) with
    | some (i, t) => h.place i t
    | none => h
  | none =>
    match (List.range 64).find? (fun j => (h.prb j).waiting && h.probePort j == some p) with
    | some j => h.probeQueue j p
    | none => if p = 0 then h.flashNext else h

/-- PORT_START_TRANSACTION (R189); when the entry's transaction started counts for R192. (log 44: DEDUCED) (log 114: DEDUCED) -/
def Hub.startTxn (h : Hub) (p : Nat) : Hub :=
  let q := h.pq p
  match q.active, nextTxn q.waiting with
  | none, some t =>
    let h1 := h.setPq p { waiting := q.waiting.erase t, active := some t }
    let h2 := match t.src with
      | .entry i => h1.setTxe i { h1.txe i with queued := false, active := true, started := some h.now }
      | _ => h1
    let h3 := if p < 16 then h2.spStart p t else h2.twStart (p - 16)
    h3.accept p
  | _, _ => h

def execPortStartTransaction (p : PortId) (s : State) : Host.Outcome State Fault Refusal :=
  s.run (fun h => if PortId.place p < 24 then h.startTxn (PortId.place p) else h)

/-- A word for a Bank M slice: 32 bits, saturated symmetrically and marked (R191). -/
def bankWord (v : BitVec 64) (unsig : Bool) : Val :=
  let x : Int := if unsig then v.toNat else v.toInt
  { v := limit 32 x, sat := decide (limit 32 x ≠ x) }

/-- A value and its stamp go to the streams the entry feeds (R191). -/
def Hub.deliver (h : Hub) (i : Nat) (t : Txn) (at_ : Instant) (v : BitVec 64) (status : Half) : Hub :=
  (h.fedBy i).foldl (fun g s =>
    let st := (g.strm s).state
    if !(st = .armed ∨ st = .running ∨ st = .waiting) then g
    else if g.bank s = 2 then
      let n := g.slice s
      let x := g.msl n
      g.setMsl n { x with fifo := x.fifo ++ [(at_, bankWord v t.unsig, t.per)] }
    else if g.forms s then
      let smp : Sample := { instant := at_, value := v, sat := false, kind := .port t.unsig, status := status, period := t.per, pos := none,
                            pass := false, gap := false, fresh := false }
      { g with handoff := g.handoff ++ [(s, smp)] }
    else g) h

/-- A completion that delivers nothing: GAP on the next record, but for NOREPLY (R54, R121, R158, R165). -/
def Hub.undelivered (h : Hub) (i code : Nat) : Hub :=
  (h.fedBy i).foldl (fun g s =>
    if !g.forms s then g
    else if g.bank s = 2 then g.mHole (g.slice s) (code != 3)
    else if code = 3 then g.formRecord s
    else (g.formRecord s).lose s) h

/-- What the transaction that ended on port p read: its instant, reply string and status field (R84, R85, R190). -/
def Hub.reply (h : Hub) (p : Nat) (t : Txn) : Instant × List Bool × Half :=
  if p < 16 then
    let x := h.spt p
    (h.portStamp x.base x.at_ (x.sen + refCycles x.words t.ref) + inst256 (Config.outDelay p h.age.temp).toNat,
      x.data.flatMap (fun w => bitsMsb (wordWidth x.words) w.toNat), x.status)
  else
    let x := h.twt (p - 16)
    let k := if t.ref = 1 ∧ twf x.words 0 8 6 ≠ 0 then x.rstart else x.start
    let bs := if t.le then x.data.reverse else x.data
    (h.portStamp x.base x.at_ k + inst256 (Config.outDelay p h.age.temp).toNat, bs.flatMap (fun b => bitsMsb 8 b.toNat), x.status)

/-- TRANSACTION_COMPLETE: the port hands its completion code to the scheduler, which delivers, releases a held trigger and triggers
chained entries (R158, R165, R184, R188, R190, R191, R198). -/
def Hub.txnComplete (h : Hub) (p : Nat) : Hub :=
  let phase := if p < 16 then (h.spt p).phase else (h.twt (p - 16)).phase
  match phase, (h.pq p).active with
  | .done code0, some t =>
    let (at_, str, status) := h.reply p t
    let h1 := if p < 16 then h.setSpt p { h.spt p with phase := .idle } else h.setTwt (p - 16) { h.twt (p - 16) with phase := .idle }
    let h2 := h1.setPq p { h1.pq p with active := none }
    let h2 := if p < 16 then h2.spApply p else h2.twRest (p - 16)
    match t.src with
    | .entry i =>
      let code := if h2.entryAbsent i then 3 else code0
      let h3 := h2.setTxe i { h2.txe i with active := false, held := none, spaced := false }
      let h4 := if code = 0 then h3.deliver i t at_ (replyValue t str) status else h3.undelivered i code
      let h5 := match (h2.txe i).held with
        | none => h4
        | some u => if h4.entryAbsent i then ((h4.fedBy i).foldl (fun (g : Hub) s => g.missing s 1) h4).complete i noReply else h4.place i u
      h5.complete i code
    | .probe j =>
      h2.setPrb j { h2.prb j with queued := false, result := some (code0, BitVec.ofNat 32 (field_ str 0 32)) }
    | .flash => h2.flashNext
  | _, _ => h

def execTransactionComplete (p : PortId) (s : State) : Host.Outcome State Fault Refusal :=
  s.run (fun h => if PortId.place p < 24 then h.txnComplete (PortId.place p) else h)

/-! ### Target addressing (R172 to R176) -/

/-- An address R162 keeps the hub from answering. -/
def excludedAddr (a : BitVec 7) : Bool := decide (a.toNat < 8 ∨ 0x78 ≤ a.toNat)

/-- The PEC setting of the target address that matches, if one does (R172). -/
def Hub.targetMatch (h : Hub) (n : Nat) (a : BitVec 7) : Option Bool :=
  let r (k : Nat) : Nat := twReg n (0x080 + 4 * k)
  if !h.bit (twReg n 0) 4 || excludedAddr a then none
  else if h.bit (twReg n 0x090) 8 then
    let m : BitVec 7 := BitVec.ofNat 7 (h.fld (twReg n 0x090) 0 7)
    if (a ^^^ BitVec.ofNat 7 (h.fld (r 0) 0 7)) &&& ~~~ m = 0 then some (h.bit (r 0) 9) else none
  else ((List.range 4).find? (fun k => h.bit (r k) 8 && h.fld (r k) 0 7 == a.toNat)).map (fun k => h.bit (r k) 9)

/-- Command codes of R173, and those that are reads. -/
def targetCodes : List Nat := [0x10, 0x11, 0x20, 0x21, 0x22]
def readCodes : List Nat := [0x11, 0x20, 0x21]

/-- A START follows in a frame of the target logic: a write that lacks its last byte is discarded and counted (R174). -/
def Hub.cutShort (h : Hub) (n : Nat) : Hub :=
  if (h.twt n).tgt.any (fun f => !f.rd && f.code.any (fun c => !readCodes.contains c.toNat)) then h.bump (twReg n 0x028) 16 8 1 else h

/-- TARGET_ADDRESS_MATCH: an address on the bus after a START, and for a write the command code that follows it (R169, R172 to R174, R176, R227). An
address the hub sends itself it never answers. -/
def Hub.targetAddress (h : Hub) (n : Nat) (a : BitVec 7) (rd : Bool) (code : Option Byte) : Hub :=
  let x := h.twt n
  if x.phase = .frame then h else
  let g0 := h.cutShort n
  let other := g0.setTwt n { x with busy := true, freeAt := 0, tgt := none }
  match h.targetMatch n a with
  | none => other
  | some pec =>
    if h.pwr.state ≥ 3 then
      let h1 := other.bump (twReg n 0x028) 0 8 1
      if h1.bit 0x1010C 8 then h1.wakeBy 4 h1.wakeCeil else h1
    else
    let g := if x.tgt.isSome then g0 else g0.twApply n
    let y := { g.twt n with busy := true, freeAt := 0 }
    if rd then
      let ok : Bool := match x.tgt with
        | none => false
        | some f => !f.rd && f.code.any (fun c => readCodes.contains c.toNat)
      g.setTwt n { y with tgt := if ok then x.tgt.map (fun f => { f with rd := true, pec := pec, addr := a }) else none }
    else
      let head : BitVec 128 := if code = some 0x21 then ((g.eq_ 0).head.map (fun i => packRecord i.rcd)).getD 0 else 0
      let f : TargetFrame := { addr := a, pec := pec, code := code, rd := false, first := a, item := head }
      match code with
      | none => g.setTwt n { y with tgt := some f }
      | some c =>
        if targetCodes.contains c.toNat then g.setTwt n { y with tgt := some f }
        else (g.setTwt n { y with tgt := none }).bump (twReg n 0x028) 8 8 1

def execTargetAddressMatch (n : Nat) (addr : BitVec 7) (rd : Bool) (code : Option Byte) (s : State) :
    Host.Outcome State Fault Refusal :=
  s.run (fun h => if n < 8 then h.targetAddress n addr rd code else h)

/-- TGT_ENABLE (R172, R179). -/
def Hub.tgtEnable (h : Hub) (n : Nat) (en : Bool) : Hub :=
  let h1 := h.setBit (twReg n 0) 4 en
  if en then h1 else (h1.setTwt n { h1.twt n with tgt := none }).twRest n

def execTgtEnable (n : Nat) (en : Bool) (s : State) : Host.Outcome State Fault Refusal :=
  s.run (fun h => if n < 8 then h.tgtEnable n en else h)

/-- TARGET_TIMEOUT: the frame is discarded (R175). -/
def Hub.targetTimeout (h : Hub) (n : Nat) : Hub :=
  let x := h.twt n
  if h.bit (twReg n 4) 1 ∧ x.tgt.isSome then ((h.setTwt n { x with tgt := none }).twRest n).bump (twReg n 0x028) 24 8 1 else h

def execTargetTimeout (n : Nat) (s : State) : Host.Outcome State Fault Refusal :=
  s.run (fun h => if n < 8 then h.targetTimeout n else h)

/-! ### Registers (R154, R179) -/

/-- What a fabric read of a serial port's page gives. -/
def Hub.spRead (h : Hub) (n off : Nat) : Word :=
  if off = 0x008 then
    let x := h.spt n
    BitVec.ofNat 32 ((h.pq n).active.isSome.toNat + 2 * x.pending.toNat + 4 * x.selAt h.now + 256 * x.fmt + 4096 * x.tries)
  else h.seen (spReg n off)

/-- What a fabric read of a two-wire port's page gives. -/
def Hub.twRead (h : Hub) (n off : Nat) : Word :=
  if off = 0x020 then
    let x := h.twt n
    BitVec.ofNat 32 ((h.pq (16 + n)).active.isSome.toNat + 2 * x.pending.toNat + 4 * x.busy.toNat + 8 * x.stuck.toNat + 256 * x.fmt
      + 4096 * (x.tries % 16))
  else h.seen (twReg n off)

/-- The format a register of a port page belongs to. -/
def spFormatAt (off : Nat) : Nat := if 0x400 ≤ off then (off - 0x400) / 0x100 % 8 else if 0x100 ≤ off then (off - 0x100) / 0x20 % 8 else 0

/-- A fabric write to a serial port's page (R154, R159). -/
def Hub.spWrite (h : Hub) (col : Bool) (n off : Nat) (v : Word) : Hub :=
  if off = 0 then
    let h1 := if v.getLsbD 1 then h.spCommit n else h
    let h2 := if v.getLsbD 2 then h1.spAbort n else h1
    h2.spEnable n (v.getLsbD 0)
  else if n = 0 && !col && ((0x1E0 ≤ off && off < 0x1F8) || (0xB00 ≤ off && off < 0xC00)) then h.flag (spErr 0) 3 7
  else h.putReg (spErr n) (spFormatAt off) (spReg n off) (h.bit (spReg n 0) 0) anyField v

/-- A fabric write to a two-wire port's page (R179). Whether SDA reads high at the end of a bus clear is open here. -/
def Hub.twWrite (h : Hub) (n off : Nat) (v : Word) : Hub :=
  if off = 0 then
    let h1 := if v.getLsbD 1 then h.twCommit n else h
    let h2 := if v.getLsbD 2 then h1.twAbort n else h1
    let h3 := if v.getLsbD 3 then h2.fresh.2.busclr n (h2.fresh.1.getLsbD 0) else h2
    (h3.setBit (twReg n 0) 0 (v.getLsbD 0)).tgtEnable n (v.getLsbD 4)
  else h.putReg (twErr n) (spFormatAt off) (twReg n off) (h.bit (twReg n 0) 0 || h.bit (twReg n 0) 4) anyField v

end Sys2Proof.Machine
end

