-- ==== Sys2Proof/Machine/Engines.lean ====
section
/-! DEFINITION. Engines as the hub runs them (R237 to R261, R292 to R295): their RAMs and buffers, trap and interrupt entry, the task
model in STATIC and STEALING scheduling, and the control page. -/

namespace Sys2Proof.Machine

/-- Address of an engine's control register, and ENG_ERR (R258). -/
def engReg (e off : Nat) : Nat := 0x120000 + 0x100 * e + off
def engErr (e : Nat) : ErrReg := ⟨engReg e 0x7C, 5, 0, 0⟩

/-- Engine e, 72 being the Col pair, and the engine set. -/
def engDefault (e : Nat) : Engine := if e = 72 then Engine.colInit else Engine.init
def Hub.eng (h : Hub) (e : Nat) : Engine := tval (engDefault e) h.engines e
def Hub.setEng (h : Hub) (e : Nat) (x : Engine) : Hub := { h with engines := tset (engDefault e) h.engines e x }

/-- It executes instructions: IDLE, TASK or HANDLER. -/
def EngState.runs (s : EngState) : Bool := s = .idle || s = .task || s = .handler

/-- STATE as a number (R258). -/
def EngState.code : EngState → Nat
  | .reset => 0
  | .idle => 1
  | .task => 2
  | .handler => 3
  | .halted => 4
  | .debug => 5
  | .retired => 6

/-! ### RAMs and buffers (R237, R240 to R243, R260) -/

/-- Where code byte a and data word w of an engine are kept. -/
def codeAddr (e a : Nat) : Nat := if e = 72 then colBase + a % 0x40000 else windowBase + 0x10000 * e + a % 0x8000
def dataAddr (e w : Nat) : Nat := if e = 72 then colBase + 0x40000 + 2 * w else windowBase + 0x10000 * e + 0x8000 + 2 * w

/-- Size of code RAM, to which a PC is reduced (R262), and the words of data RAM. -/
def codeSize (e : Nat) : Nat := if e = 72 then 0x40000 else 0x8000
def dataSize (e : Nat) : Nat := if e = 72 then 0x10000 else 0x2000

/-- A word of RAM. -/
def State.ramWord (s : State) (e w : Nat) : Half := BitVec.ofNat 16 (ofBytes (s.load (dataAddr e w) 2))

/-- A data word as the merged view of R241 shows it. -/
def State.dataWord (s : State) (e w : Nat) : Half :=
  match (s.hub.eng e).sbuf with
  | none => s.ramWord e w
  | some (a, ws) => (ws[(w + 65536 - a) % 65536]?).getD (s.ramWord e w)

/-- Words written to RAM from word address w on, modulo 2^16 (R240). -/
def State.ramStore (s : State) (e w : Nat) : List Half → State
  | [] => s
  | x :: r => State.ramStore (s.store (dataAddr e w) (bytesOf 2 x.toNat)) e ((w + 1) % 65536) r

/-- The store buffer drains to RAM (R241). -/
def State.drainStore (s : State) (e : Nat) : State :=
  let x := s.hub.eng e
  match x.sbuf with
  | none => s
  | some (a, ws) => (s.ramStore e a ws).mapHub (fun h => h.setEng e { x with sbuf := none })

/-- A store enters the store buffer, and the entry held before is written to RAM (R241). -/
def State.pushStore (s : State) (e w : Nat) (ws : List Half) : State :=
  let s1 := s.drainStore e
  s1.mapHub (fun h => h.setEng e { h.eng e with sbuf := some (w, ws) })

/-- A fabric write of a data word reaches the buffer too (R241). -/
def patch (l : List Half) (i : Nat) (v : Half) : List Half := if i < l.length then l.take i ++ v :: l.drop (i + 1) else l
def State.fabricData (s : State) (e w : Nat) (v : Half) : State :=
  let x := s.hub.eng e
  let y := match x.sbuf with
    | none => x
    | some (a, ws) => if a ≤ w then { x with sbuf := some (a, patch ws (w - a) v) } else x
  (s.mapHub (fun h => h.setEng e y)).ramStore e w [v]

/-! ### Traps and interrupts (R249 to R252) -/

/-- SR bits. -/
def srC : Nat := 0
def srZ : Nat := 1
def srN : Nat := 2
def srV : Nat := 3
def srIE : Nat := 8
def srIH : Nat := 9
def srMode : Nat := 10

/-- A bit of a half word set or cleared. -/
def putBit (w : Half) (i : Nat) (v : Bool) : Half := if v then w ||| BitVec.ofNat 16 (2 ^ i) else w &&& ~~~ (BitVec.ofNat 16 (2 ^ i))

/-- Cycles of a task run, which its budget and its stream's load count (R256, R308). -/
def Engine.worked (x : Engine) (n : Nat) : Engine :=
  match x.run with
  | none => x
  | some r => { x with run := some { r with used := r.used + n }, work := tset 0 x.work r.entry.sid (tval 0 x.work r.entry.sid + n) }

/-- Cycles spent in TASK and HANDLER, and those of a run counted while IH is 0 (R256, R258). -/
def Engine.spend (x : Engine) (n : Nat) : Engine :=
  let y := if x.st = .task ∨ x.st = .handler then { x with cycles := x.cycles + BitVec.ofNat 48 n } else x
  if x.sr.getLsbD srIH then y else y.worked n

/-- Entry through vector v (R250). -/
def Engine.enter (x : Engine) (v info : Nat) : Engine :=
  let esr := BitVec.ofNat 16 (v + x.sr.toNat % 16 * 16 + (x.sr.getLsbD srIE).toNat * 256 + info * 512)
  let y := { x with epc := x.pc, esr := esr, sr := putBit (putBit x.sr srIE false) srIH true, pc := BitVec.ofNat 18 (16 * v), res := none,
                    st := .handler, cause := BitVec.ofNat 4 v }
  y.spend 4

/-- The record of a run, among those in flight, takes a stage and perhaps a result. -/
def markFlight (sid : Nat) (seq : BitVec 48) (f : Flight → Flight) (l : List Flight) : List Flight :=
  l.map (fun x => if x.sid = sid ∧ x.seq = seq then f x else x)

/-- The record of a run leaves its task at a stage, and what it held back may pass stage 7 (R18). -/
def Hub.runLeaves (h : Hub) (d : DispatchEntry) (st : Stage) : Hub :=
  Hub.toTaps { h with flight := markFlight d.sid d.seq (fun f => { f with stage := st }) h.flight } d.sid

/-- A run ends with no record handed on. -/
def Hub.runVoid (h : Hub) (d : DispatchEntry) : Hub := h.runLeaves d .none

/-- A run sends its stream to FAULT, its record discarded (R250, R256). -/
def Hub.runFault (h : Hub) (d : DispatchEntry) : Hub := (h.runVoid d).toFault d.sid 10

/-- A trap of engine e at its PC: entered, or a double trap, which halts it (R249, R250). The Col pair has no control page. (log 52: DEDUCED) (log 94: DESIGN CHOICE) -/
def State.trapTo (s : State) (e v info : Nat) : State :=
  let s0 := s.mapHub (fun h => if e < 72 then h.bump (engReg e 0x18) 16 8 1 else h)
  let x := s0.hub.eng e
  if !x.sr.getLsbD srIH then s0.mapHub (fun h => h.setEng e (x.enter v info))
  else
    let esr := BitVec.ofNat 16 (v + x.sr.toNat % 16 * 16 + (x.sr.getLsbD srIE).toNat * 256 + info * 512)
    (s0.drainStore e).mapHub (fun h =>
      let h1 := h.setEng e { h.eng e with st := .halted, back := .handler, esr := esr, res := none, run := none, cause := BitVec.ofNat 4 v }
      let h2 := if e < 72 then (h1.flag (engErr e) 4 0).health 0x50 e 0x85 esr.toNat else { h1 with mbonik := false }
      match x.run with
      | none => h2
      | some r => if r.entry.third then h2 else h2.runFault r.entry)

/-- An interrupt of engine e is pending and may be taken (R251). -/
def Hub.interruptDue (h : Hub) (e : Nat) : Bool :=
  let x := h.eng e
  let irq := h.reg (engReg e 0x1C)
  decide (e < 72) && x.st.runs && x.sr.getLsbD srIE && !x.sr.getLsbD srIH
    && ((irq.getLsbD 0 && irq.getLsbD 8) || (irq.getLsbD 1 && irq.getLsbD 9))

/-- INTERRUPT_ENTRY at an instruction boundary (R252). (log 52: DEDUCED) -/
def Hub.interruptEntry (h : Hub) (e : Nat) : Hub := if h.interruptDue e then h.setEng e ((h.eng e).enter 1 0) else h

def execInterruptEntry (e : Nat) (s : State) : Host.Outcome State Fault Refusal := s.run (fun h => h.interruptEntry e)

/-- Engine x has reached one of its breakpoints. -/
def Engine.broken (x : Engine) : Bool := x.breaks.contains x.pc

/-- A breakpoint stops engine e in DEBUG before the instruction at it; with the Col pair Mbonik stops (R389, R393). (log 83: DESIGN CHOICE) -/
def Hub.breakIn (h : Hub) (e : Nat) : Hub :=
  let x := h.eng e
  let h1 := h.setEng e { x with back := x.st, st := .debug }
  if e = 72 then { h1 with mbonik := false } else h1

/-- BUDGET_EXCEEDED: the next cycle of the run would exceed its budget (R256). -/
def State.budgetTrap (s : State) (e : Nat) : State :=
  let x := s.hub.eng e
  match x.run with
  | none => s
  | some r => if x.st = .task ∧ r.budget ≠ 0 ∧ !x.sr.getLsbD srIH then s.trapTo e 11 0 else s

def execBudgetExceeded (e : Nat) (s : State) : Host.Outcome State Fault Refusal := .next (s.budgetTrap e).settle

/-! ### Dispatch (R254, R294) -/

/-- The slot of engine e that holds a task, if one does. -/
def Hub.taskSlot (h : Hub) (e id : Nat) : Option Nat :=
  (List.range 16).find? (fun k => h.bit (engReg e (0x80 + 4 * k)) 15 && h.fld (engReg e (0x80 + 4 * k)) 16 8 == id)

/-- LIVE engines, ascending, as far as the power state runs them (R306, R313). -/
def Hub.liveEngines (h : Hub) : List Nat := (List.range 72).filter (fun e => h.unitState 0x50 e == 1)
def Hub.openEngines (h : Hub) : List Nat :=
  match h.pwr.state with
  | 2 => h.liveEngines.take 16
  | 3 => h.liveEngines.take 1
  | _ => h.liveEngines

/-- Engine e can be home to a stream with a task: open to dispatch, with the task in a slot. (log 53: DESIGN CHOICE) -/
def Hub.canHost (h : Hub) (e id : Nat) : Bool :=
  h.openEngines.contains e && (h.taskSlot e id).isSome && !h.bit (engReg e 0) 3

/-- The home of a stream: the one it has while that engine can host it, else one Mbonik chooses among those that can. (log 53: DESIGN CHOICE) (log 62: DEDUCED) -/
def Hub.homeOf (h : Hub) (sid : Nat) : Option Nat × Hub :=
  let x := h.strm sid
  let id := h.taskId sid
  match (x.home.filter (fun e => h.canHost e id)) with
  | some e => (some e, h)
  | none =>
    if h.rp.homeless.contains sid then (none, h) else
    let l := (List.range 72).filter (fun e => h.canHost e id)
    if !h.mbonik || l.isEmpty then (none, h) else
    let (v, g) := h.fresh
    let e := (l[v.toNat % l.length]?).getD 0
    (some e, g.setStrm sid { g.strm sid with home := some e })

/-- The oldest record of a stream that stage 6 has still to hand on. -/
def waitsTask (sid : Nat) (f : Flight) : Bool :=
  f.sid == sid && (match f.stage with
    | .toTask _ => true
    | _ => false)

/-- The queue is full: the context holds 4 records of the stream, and a further one is discarded (R254). -/
def Hub.holdOrDrop (h : Hub) (sid : Nat) : Hub :=
  let mine := h.flight.filter (waitsTask sid)
  if mine.length ≤ 4 then h else
  match mine.getLast? with
  | none => h
  | some f => (Hub.toTaps { h with flight := h.flight.filter (fun g => !(g.sid == sid && g.seq == f.seq)) } sid).lose sid

/-- Deque header and slots of an engine in the commons (R293). -/
def dequeHead (e : Nat) : Nat := 0x21BC00 + 8 * e
def dequeSlot (e i : Nat) : Nat := 0x21C000 + 0x800 * e + 32 * (i % 64)

/-- A word of the commons. -/
def State.commonsWord (s : State) (a : Nat) : Nat := ofBytes (s.load a 2)

/-- TOP, BOTTOM and the number of descriptors of a deque. -/
def State.dequeTop (s : State) (e : Nat) : Nat := s.commonsWord (dequeHead e)
def State.dequeBottom (s : State) (e : Nat) : Nat := s.commonsWord (dequeHead e + 2)
def State.dequeLen (s : State) (e : Nat) : Nat := (s.dequeBottom e + 65536 - s.dequeTop e) % 65536

/-- The words a request writes. -/
def EngReq.written : EngReq → List Written
  | .write a ws => ws.zipIdx.filterMap (fun w => w.1.map (fun v => (a + 2 * w.2, v)))
  | .read _ _ _ => []

/-- A log of at most 256 writes takes some more; whether it has overflowed (R285). -/
def logMore (log more : List Written) (full : Bool) : List Written × Bool :=
  ((log ++ more).take 256, full || decide (256 < (log ++ more).length))

/-- Two logs leave the same last value at each address (R286). -/
def sameWrites (a b : List Written) : Bool :=
  let last (l : List Written) (k : Nat) : Option Half := ((l.filter (fun w => w.1 == k)).getLast?).map (fun w => w.2)
  (a ++ b).all (fun w => last a w.1 == last b w.1)

/-- Reservations on a granule end, but for those of one engine (R247). -/
def Hub.endReservations (h : Hub) (granule by_ : Nat) : Hub :=
  h.engines.foldl (fun g x => if x.1 ≠ by_ ∧ x.2.res = some granule then g.setEng x.1 { x.2 with res := none } else g) h

/-- A descriptor: the record, then SID and flags, TASK_ID, SEQ, and zeros (R293). -/
def descriptor (r : Record) (sid : Nat) (rerun : Bool) (id : Nat) (seq : BitVec 48) : List Byte :=
  recordBytes r ++ bytesOf 2 (sid + rerun.toNat * 512) ++ bytesOf 2 id ++ bytesOf 4 (seq.toNat % 2 ^ 32) ++ bytesOf 8 0

/-- DISPATCH: stage 6 hands the oldest waiting record of a stream to its home engine's dispatch queue, or in STEALING to its deque
(R254, R294). -/
def State.dispatch (s : State) (sid : Nat) : State :=
  match s.hub.flight.find? (waitsTask sid) with
  | none => s
  | some f =>
    let rerun : Bool := match f.stage with
      | .toTask r => r
      | _ => false
    match s.hub.homeOf sid with
    | (none, h) => { s with hub := h.holdOrDrop sid }
    | (some e, h) =>
      let taken : Hub := { h with flight := markFlight f.sid f.seq (fun g => { g with stage := .inTask }) h.flight }
      if h.rp.stealing then
        if s.dequeLen e ≥ 64 then { s with hub := h.holdOrDrop sid }
        else
          let i := s.dequeBottom e
          let ended : Hub := [dequeHead e, dequeSlot e i, dequeSlot e i + 8, dequeSlot e i + 16, dequeSlot e i + 24].foldl
            (fun (g : Hub) a => g.endReservations a 73) taken
          let s1 : State := { s with hub := ended }
          (s1.store (dequeSlot e i) (descriptor f.rcd sid rerun (h.taskId sid) f.seq)).store (dequeHead e + 2) (bytesOf 2 (i + 1))
      else
        let x := h.eng e
        if x.queue.length ≥ 8 then { s with hub := h.holdOrDrop sid }
        else { s with hub := taken.setEng e { x with queue := x.queue ++ [{ sid := sid, seq := f.seq, rerun := rerun }] } }

def execDispatch (sid : Nat) (s : State) : Host.Outcome State Fault Refusal := .next (s.dispatch sid).settle

/-! ### Task runs (R254, R255, R294) -/

/-- The engine shadow's hold keeps its live engine from starting a run (R285). -/
def Hub.engHeld (h : Hub) (e : Nat) : Bool :=
  let w := tval Shadow.init h.rp.shadows 3
  w.phase == 3 && (w.live.any (fun n => h.physOf 0x50 n == e))

/-- Engine e may start a run: IDLE, and open to dispatch. -/
def Hub.canRun (h : Hub) (e : Nat) : Bool :=
  decide (e < 72) && (h.eng e).st == .idle && h.openEngines.contains e && !h.bit (engReg e 0) 3 && !h.engHeld e

/-- The live engine of the engine shadow, and its shadow, while the two run together or are about to (R284). -/
def Hub.pair (h : Hub) : Option (Nat × Nat) :=
  let x := tval Shadow.init h.rp.shadows 3
  match x.live, x.spare with
  | some n, some w => if 2 ≤ x.phase then some (h.physOf 0x50 n, w) else none
  | _, _ => none

/-- The engine shadow changed. -/
def Hub.setPair (h : Hub) (f : Shadow → Shadow) : Hub := h.setShd 3 (f (tval Shadow.init h.rp.shadows 3))

/-- A run of the live engine of a pair starts in both: the first copies every register that persists across runs, and the witness keeps the run's
input record (R284, R285). (log 66: DEDUCED) -/
def Hub.pairStarts (h : Hub) (e : Nat) (r : Record) : Hub :=
  if h.pair.any (fun p => p.1 == e) then
    h.setPair (fun x => { x with joined := some (x.joined.getD (h.eng e).cycles), wit := { input := some r } })
  else h

/-- A run starts on engine e from a slot's word: an empty stack, P1 to P7 cleared, the exchange area written, and ENTRY with IE at 1 (R254, R255). (log 51: DEDUCED) -/
def State.beginRun (s : State) (e : Nat) (word : Word) (d : DispatchEntry) (r : Record) (id : Nat) : State :=
  let h := if d.third then s.hub else s.hub.pairStarts e r
  let y := h.strm d.sid
  let first := d.third || y.lastEng != some e
  let x := h.eng e
  let z : Engine := { x with st := .task, stack := [], pred := 1, pc := BitVec.ofNat 18 (bits word 0 15),
                             sr := putBit (putBit x.sr srIE true) srIH false, res := none,
                             run := some { entry := d, used := 0, budget := 256 * bits word 24 8 }, task := BitVec.ofNat 8 id,
                             sid := BitVec.ofNat 8 d.sid }
  let h1 := if d.third then h.setEng e z else (h.setEng e z).setStrm d.sid { y with lastEng := some e }
  let h2 := if d.rerun then h1.bump (engReg e 0x18) 24 8 1 else h1
  let flags := d.sid + first.toNat * 256 + d.rerun.toNat * 512
  let area := recordBytes r ++ bytesOf 2 flags ++ bytesOf 2 id ++ bytesOf 4 (d.seq.toNat % 2 ^ 32) ++ bytesOf 8 0 ++ recordBytes r
  let s1 := State.drainStore { s with hub := h2 } e
  s1.store (dataAddr e 0x1FE0) area

/-- A run of the task in a slot of engine e starts. (log 51: DEDUCED) -/
def State.startRun (s : State) (e slot : Nat) (d : DispatchEntry) (r : Record) (id : Nat) : State :=
  s.beginRun e (s.hub.reg (engReg e (0x80 + 4 * slot))) d r id

/-- The third opinion of a vote starts on engine e, from the input record the witness keeps, with the disputed engine's task word (R286). (log 138: DESIGN CHOICE) -/
def State.startThird (s : State) (e : Nat) (d : DispatchEntry) : State :=
  let x := tval Shadow.init s.hub.rp.shadows 3
  match x.live, x.wit.input, x.third.any (fun t => t.eng == e) with
  | some n, some r, true =>
    let p := s.hub.physOf 0x50 n
    let id := s.hub.taskId d.sid
    match s.hub.taskSlot p id with
    | some slot => s.beginRun e (s.hub.reg (engReg p (0x80 + 4 * slot))) d r id
    | none => s
  | _, _, _ => s

/-- The task a descriptor names. -/
def State.descriptorTask (s : State) (a : Nat) : Nat := s.commonsWord (a + 18) % 256

/-- A run taken from a deque is that of the descriptor read, also where no record in flight bears its SID and SEQ (R293, R294). -/
def State.runDescriptor (s : State) (e slot a : Nat) : State :=
  let r := unpackRecord (BitVec.ofNat 128 (ofBytes (s.load a 16)))
  let w := s.commonsWord (a + 16)
  let seq := ofBytes (s.load (a + 20) 4)
  let sid := w % 256
  let full := ((s.hub.flight.find? (fun f => f.sid == sid && f.seq.toNat % 2 ^ 32 == seq)).map (fun f => f.seq)).getD (BitVec.ofNat 48 seq)
  s.startRun e slot { sid := sid, seq := full, rerun := w.testBit 9 } r (s.descriptorTask a)

/-- The deque an idle engine takes from, and the slot of the descriptor there: the bottom of its own, or the top of the fullest where its own is
empty (R294). -/
def State.dequeTurn (s : State) (e : Nat) : Option (Nat × Nat) :=
  if s.dequeLen e ≠ 0 then some (e, dequeSlot e ((s.dequeBottom e + 65535) % 65536))
  else
    let most := (List.range 72).foldl (fun m k => if s.dequeLen k > s.dequeLen m then k else m) 0
    if s.dequeLen most = 0 then none else some (most, dequeSlot most (s.dequeTop most))

/-- Some deque is not empty. -/
def State.dequesUsed (s : State) : Bool := s.mem.any (fun c => decide (dequeHead 0 ≤ c.1 ∧ c.1 < dequeHead 72))

/-- What an idle engine can take from the deques: a descriptor whose task one of its slots holds; in either mode, since those placed in STEALING run as
placed (R294). (log 139: DEDUCED) -/
def State.dequeTake (s : State) (e : Nat) : Option (Nat × Nat × Nat) :=
  if !s.dequesUsed then none else
  match s.dequeTurn e with
  | none => none
  | some (k, a) => (s.hub.taskSlot e (s.descriptorTask a)).map (fun slot => (k, a, slot))

/-- TASK_RUN_START: an IDLE engine starts the run at the head of its queue, after those it has to run again; with none it takes a descriptor from
a deque (R254, R259, R294). (log 51: DEDUCED) -/
def State.taskStart (s : State) (e : Nat) : State :=
  if !s.hub.canRun e then s else
  let x := s.hub.eng e
  match x.again ++ x.queue with
  | d :: _ =>
    let id := s.hub.taskId d.sid
    let left : Engine := { x with again := x.again.drop 1, queue := if x.again.isEmpty then x.queue.drop 1 else x.queue }
    let s1 := s.mapHub (fun h => h.setEng e left)
    if d.third then s1.startThird e d else
    match s.hub.taskSlot e id, s.hub.flight.find? (fun f => f.sid == d.sid && f.seq == d.seq) with
    | some slot, some f => s1.startRun e slot d f.rcd id
    | some _, none => s1
    | none, _ => s
  | [] =>
    match s.dequeTake e with
    | none => s
    | some (k, a, slot) =>
      let s1 := s.mapHub (fun h => h.endReservations (dequeHead k) e)
      let s2 := if k = e then s1.store (dequeHead e + 2) (bytesOf 2 ((s.dequeBottom e + 65535) % 65536))
        else s1.store (dequeHead k) (bytesOf 2 (s.dequeTop k + 1))
      s2.runDescriptor e slot a

def execTaskRunStart (e : Nat) (s : State) : Host.Outcome State Fault Refusal := .next (s.taskStart e).settle

/-- The result record in OUT, as the merged view (R241, R256). -/
def State.outRecord (s : State) (e : Nat) : Record :=
  unpackRecord (BitVec.ofNat 128 ((List.range 8).foldl (fun n i => n + (s.dataWord e (0x1FF0 + i)).toNat * 2 ^ (16 * i)) 0))

/-! ### RUN, HALT and SERVICE (R258, R259) -/

/-- Engine e is RETIRED, and its page ignores writes. (log 50: DEDUCED) -/
def Hub.engGone (h : Hub) (e : Nat) : Bool := (h.eng e).st = .retired

/-- A run is abandoned: its record is re-run, before the engine's entries (R18, R259). -/
def Engine.abandon (x : Engine) : Engine :=
  match x.run with
  | none => x
  | some r => { x with run := none, again := if r.entry.third then x.again else { r.entry with rerun := true } :: x.again }

/-- The records an engine that is given up leaves to run elsewhere: the one in flight as a re-run, then its entries (R18). -/
def Engine.entries_ (x : Engine) : List DispatchEntry := (x.abandon.again ++ x.queue).filter (fun d => !d.third)

/-- An engine enters RESET: its RAM, queue and counters stay, its registers are as after reset, and its buffers are drained and
emptied (R241, R242, R259). (log 50: DEDUCED) -/
def State.engReset (s : State) (e : Nat) : State :=
  if s.hub.engGone e then s else
  (s.drainStore e).mapHub (fun h =>
    let x := (h.eng e).abandon
    let h1 := (h.setBit (engReg e 0) 0 false).setBit (engReg e 0) 1 false
    h1.setEng e { engDefault e with queue := x.queue, again := x.again, breaks := x.breaks, cycles := x.cycles, cause := x.cause, task := x.task, sid := x.sid, mark := x.mark, work := x.work,
                                    sr := putBit 0 srMode (x.sr.getLsbD srMode) })

def execEngReset (e : Nat) (s : State) : Host.Outcome State Fault Refusal := if e < 72 then .next (s.engReset e).settle else .next s

/-- RUN written 1: from RESET the engine starts at vector 0, or enters HALTED there while HALT is 1 (R258, R259). (log 43: DEDUCED) -/
def Hub.engRun (h : Hub) (e : Nat) : Hub :=
  let x := h.eng e
  if x.st ≠ .reset then h else
  let h1 := h.setBit (engReg e 0) 0 true
  h1.setEng e { x with pc := 0, st := if h.bit (engReg e 0) 1 then .halted else .idle, back := .idle }

def execEngRun (e : Nat) (s : State) : Host.Outcome State Fault Refusal := s.run (fun h => if e < 72 then h.engRun e else h)

/-- HALT written 1 (R258, R259). (log 83: DESIGN CHOICE) -/
def State.engHalt (s : State) (e : Nat) : State :=
  if s.hub.engGone e || s.hub.bit (engReg e 0) 1 then s else
  let s1 := s.mapHub (fun h => h.setBit (engReg e 0) 1 true)
  if (s1.hub.eng e).st.runs then
    (s1.drainStore e).mapHub (fun h => let x := h.eng e
                                       h.setEng e { x with back := x.st, st := .halted, res := none })
  else s1

def execEngHalt (e : Nat) (s : State) : Host.Outcome State Fault Refusal := if e < 72 then .next (s.engHalt e).settle else .next s

/-- HALT written 0: a halted engine goes on where it stopped (R258, R259). -/
def Hub.engResume (h : Hub) (e : Nat) : Hub :=
  let x := h.eng e
  if x.st = .retired ∨ !h.bit (engReg e 0) 1 then h else
  let h1 := h.setBit (engReg e 0) 1 false
  if x.st = .halted then h1.setEng e { x with st := x.back } else h1

def execEngResume (e : Nat) (s : State) : Host.Outcome State Fault Refusal := s.run (fun h => if e < 72 then h.engResume e else h)

/-- SWI written 1 (R251, R258). -/
def Hub.engSwi (h : Hub) (e : Nat) : Hub := if h.engGone e then h else h.setBit (engReg e 0x1C) 0 true

def execEngSwi (e : Nat) (s : State) : Host.Outcome State Fault Refusal := s.run (fun h => if e < 72 then h.engSwi e else h)

/-- SERVICE, from the Col pair alone and in RESET or HALTED alone (R258, R261). -/
def Hub.engService (h : Hub) (col : Bool) (e : Nat) (svc : Bool) : Hub :=
  let x := h.eng e
  if x.st = .retired then h
  else if col && (x.st = .reset || x.st = .halted) then
    (h.setBit (engReg e 0) 3 svc).setEng e { x with sr := putBit x.sr srMode svc }
  else h.flag (engErr e) 2 0

def execEngService (by_ : Initiator) (e : Nat) (svc : Bool) (s : State) : Host.Outcome State Fault Refusal :=
  s.run (fun h => if e < 72 then h.engService (by_ = .col) e svc else h)

/-! ### The control page (R258) -/

/-- Engine e as its page shows it: a shadow that runs with its live engine is in the same state, and counts its cycles (R284). (log 66: DEDUCED) -/
def Hub.engView (h : Hub) (e : Nat) : Engine :=
  let x := h.eng e
  match h.pair, (tval Shadow.init h.rp.shadows 3).joined with
  | some (p, w), some c => if w = e then { h.eng p with cycles := x.cycles + ((h.eng p).cycles - c), mark := x.mark, queue := x.queue } else x
  | _, _ => x

/-- What a fabric read of an engine's page gives, and the hub after it. -/
def Hub.engRead (h : Hub) (e off : Nat) : Word × Hub :=
  let x := h.engView e
  match off with
  | 0x04 => (BitVec.ofNat 32 (x.st.code + h.rp.stealing.toNat * 8 + x.cause.toNat * 16 + x.task.toNat * 2 ^ 8 + x.sid.toNat * 2 ^ 16
      + x.queue.length * 2 ^ 24), h)
  | 0x08 => (BitVec.ofNat 32 (x.epc.toNat % 0x8000), h)
  | 0x0C => (x.esr.setWidth 32, h)
  | 0x10 => (x.cycles.setWidth 32, h.copyLow (engReg e 0x10) (x.cycles.setWidth 128))
  | 0x14 => (h.copied (engReg e 0x10) 32 &&& 0xFFFF, h)
  | _ => (h.seen (engReg e off), h)

/-- A fabric write to an engine's page (R258, R259). -/
def State.engWrite (s : State) (col : Bool) (e off : Nat) (v : Word) : State :=
  if s.hub.engGone e then s else
  if off = 0 then
    let s1 := if s.hub.bit (engReg e 0) 3 != v.getLsbD 3 then s.mapHub (fun h => h.engService col e (v.getLsbD 3)) else s
    let s2 := if v.getLsbD 2 then s1.mapHub (fun h => h.engSwi e) else s1
    if v.getLsbD 0 then
      let s3 := if v.getLsbD 1 then s2.engHalt e else s2.mapHub (fun h => h.engResume e)
      s3.mapHub (fun h => h.engRun e)
    else if s2.hub.bit (engReg e 0) 0 || (s2.hub.eng e).st != .reset then s2.engReset e
    else if v.getLsbD 1 then s2.engHalt e else s2.mapHub (fun h => h.engResume e)
  else
    s.mapHub (fun h =>
      let locked := h.bit (engReg e 0) 0 && (h.eng e).st != .halted
      let fresh_ (f : Fld) (n : Nat) : Bool :=
        f.lsb ≠ 16 || off < 0x80 || !(List.range 16).any (fun k =>
          engReg e (0x80 + 4 * k) != engReg e off && h.bit (engReg e (0x80 + 4 * k)) 15 && h.fld (engReg e (0x80 + 4 * k)) 16 8 == n)
      h.putReg (engErr e) 0 (engReg e off) locked fresh_ v)

/-- A word written to an engine's window: code RAM under R243, data RAM under R241. -/
def State.windowWrite (s : State) (e off : Nat) (v : Word) : State :=
  if off < 0x8000 then
    let st := (s.hub.eng e).st
    if st = .reset ∨ st = .halted ∨ st = .retired then s.store (windowBase + 0x10000 * e + off) (bytesOf 4 v.toNat)
    else s.mapHub (fun h => h.flag (engErr e) 3 0)
  else
    let w := (off - 0x8000) / 2
    (s.fabricData e w (v.setWidth 16)).fabricData e (w + 1) ((v >>> 16).setWidth 16)

/-- A word read from an engine's window: code RAM as FLUSHI last left it, data RAM as the merged view (R241, R243). -/
def State.windowRead (s : State) (e off : Nat) : Word :=
  if off < 0x8000 then BitVec.ofNat 32 (ofBytes (s.load (windowBase + 0x10000 * e + off) 4))
  else
    let w := (off - 0x8000) / 2
    BitVec.ofNat 32 ((s.dataWord e w).toNat + (s.dataWord e (w + 1)).toNat * 65536)

/-- CODE_RAM_WRITE: a fabric write to code RAM through an engine window (R243). -/
def execCodeRamWrite (_by : Initiator) (addr : Nat) (val : Word) (s : State) : Host.Outcome State Fault Refusal :=
  let o := addr - windowBase
  if windowBase ≤ addr ∧ o / 0x10000 < 72 ∧ o % 0x10000 < 0x8000 then
    .next (s.windowWrite (o / 0x10000) (o % 0x10000 / 4 * 4) val).settle
  else .next s

end Sys2Proof.Machine
end

