-- ==== Sys2Proof/Machine/Flags.lean ====
section
/-! DEFINITION. Flags of the Icevo instructions (R267), the conditions on them (R270), and the sums and shifts that produce them.
Values are unsigned numbers of w bits, w being 16, or 32 with WIDE. -/

namespace Sys2Proof.Machine

/-- A number of w bits read as signed. -/
def signed (w v : Nat) : Int := (BitVec.ofNat w v).toInt

/-- The low w bits of an integer. -/
def wrapTo (w : Nat) (v : Int) : Nat := (BitVec.ofInt w v).toNat

/-- A signed value that w bits hold. -/
def fits (w : Nat) (v : Int) : Bool := decide (-(2 ^ (w - 1)) ≤ v ∧ v < 2 ^ (w - 1))

/-- A signed value limited to the range of w bits. -/
def clampTo (w : Nat) (v : Int) : Int := if v ≥ 2 ^ (w - 1) then 2 ^ (w - 1) - 1 else if v < -(2 ^ (w - 1)) then -(2 ^ (w - 1)) else v

/-- Entry ZNV of R267: Z and N from the result, V as given, C unchanged. -/
def flagsZNV (w v : Nat) (o : Bool) (sr : Half) : Half :=
  putBit (putBit (putBit sr srZ (v == 0)) srN (v.testBit (w - 1))) srV o

/-- Entry ZN: V is cleared and C unchanged. -/
def flagsZN (w v : Nat) (sr : Half) : Half := flagsZNV w v false sr

/-- Entry CZNV. -/
def flagsCZNV (w v : Nat) (c o : Bool) (sr : Half) : Half := putBit (flagsZNV w v o sr) srC c

/-- a + b + carry: the result, C and V (R267). -/
def sumOf (w a b c : Nat) : Nat × Bool × Bool :=
  ((a + b + c) % 2 ^ w, decide (a + b + c ≥ 2 ^ w), !fits w (signed w a + signed w b + c))

/-- a + NOT b + carry: the result, C (1 means no borrow) and V (R267). -/
def differenceOf (w a b c : Nat) : Nat × Bool × Bool :=
  let n := a + (2 ^ w - 1 - b) + c
  (n % 2 ^ w, decide (n ≥ 2 ^ w), !fits w (signed w a - signed w b - (1 - c)))

/-- A value of w bits shifted left by c: the result, and the last bit shifted out, which is bit c - 1 of the operand once the count reaches the
width (R272). (log 56: DEDUCED) -/
def shiftLeft (w a c : Nat) : Nat × Bool := ((a <<< c) % 2 ^ w, if c < w then a.testBit (w - c) else a.testBit (c - 1))

/-- Shifted right with zero fill. (log 56: DEDUCED) -/
def shiftRight (_w a c : Nat) : Nat × Bool := (a >>> c, a.testBit (c - 1))

/-- Shifted right with sign fill. (log 56: DEDUCED) -/
def shiftSigned (w a c : Nat) : Nat × Bool := (wrapTo w ((signed w a) >>> c), if c - 1 < w then a.testBit (c - 1) else a.testBit (w - 1))

/-- The conditions of R270 on an SR; 14 and 15 are reserved. -/
def condition (k : Nat) (sr : Half) : Bool :=
  let c := sr.getLsbD srC
  let z := sr.getLsbD srZ
  let n := sr.getLsbD srN
  let v := sr.getLsbD srV
  match k with
  | 0 => z
  | 1 => !z
  | 2 => n != v
  | 3 => n == v
  | 4 => z || n != v
  | 5 => !z && n == v
  | 6 => !c
  | 7 => c
  | 8 => !c || z
  | 9 => c && !z
  | 10 => n
  | 11 => !n
  | 12 => v
  | 13 => !v
  | _ => false

end Sys2Proof.Machine
end

