-- ==== Sys2Proof/Machine/Operands.lean ====
section
/-! DEFINITION. The operand forms of the Icevo instructions (R266, R268, R269, R271): stack values and pairs, predicates,
effective addresses and special registers. -/

namespace Sys2Proof.Machine

/-! ### The stack (R266); the model keeps it top first -/

/-- Entries a value takes, and its width. -/
def entries (wide : Bool) : Nat := if wide then 2 else 1
def widthOf (wide : Bool) : Nat := if wide then 32 else 16

/-- The value on top of the stack, a pair with its low word below, and the rest. -/
def popValue (wide : Bool) (l : List Half) : Nat × List Half :=
  if wide then ((l.getD 0 0).toNat * 65536 + (l.getD 1 0).toNat, l.drop 2) else ((l.getD 0 0).toNat, l.drop 1)

/-- A value pushed. -/
def pushValue (wide : Bool) (v : Nat) (l : List Half) : List Half :=
  if wide then BitVec.ofNat 16 (v / 65536) :: BitVec.ofNat 16 v :: l else BitVec.ofNat 16 v :: l

/-- k words pushed, the lowest-addressed first; and the top k words, lowest-addressed first. -/
def pushWords (ws l : List Half) : List Half := ws.reverse ++ l
def topWords (k : Nat) (l : List Half) : List Half := (l.take k).reverse

/-! ### Predicates (R237) -/

/-- Predicate n: P0 always reads 1. -/
def Engine.p (x : Engine) (n : Nat) : Bool := n == 0 || x.pred.getLsbD n

/-- Predicate d set: a write to P0 is discarded. -/
def Engine.setP (x : Engine) (d : Nat) (v : Bool) : Engine :=
  if d = 0 then x else { x with pred := if v then x.pred ||| BitVec.ofNat 8 (2 ^ d) else x.pred &&& ~~~ (BitVec.ofNat 8 (2 ^ d)) }

/-- A guard holds (R263). -/
def Engine.guard (x : Engine) (p : Pfx) : Bool :=
  match p.guard with
  | none => true
  | some (pos, n) => x.p n.toNat == pos

/-! ### Addresses (R269) -/

/-- Base register n, its modulo length, and each set. -/
def Engine.base (x : Engine) (n : Nat) : Nat := (tval 0 x.b n).toNat
def Engine.modulo (x : Engine) (n : Nat) : Nat := let m := (tval 0 x.ml n).toNat; if m = 0 then 65536 else m
def Engine.setBase (x : Engine) (n v : Nat) : Engine := { x with b := tset 0 x.b n (BitVec.ofNat 16 v) }

/-- The low n bits of a number reversed. -/
def reverseBits (n v : Nat) : Nat := (List.range n).foldl (fun r i => if v.testBit i then r + 2 ^ (n - 1 - i) else r) 0

/-- The mode of a single-word access: BREV through a base whose BRF bit is 1, else the prefix's. -/
def Engine.mode (x : Engine) (n : Nat) (a : AddrMode) : AddrMode := if x.brf.getLsbD n then .brev else a

/-- The offset of a base in its buffer, and the buffer's start. -/
def Engine.offset (x : Engine) (n : Nat) : Nat := x.base n % x.modulo n
def Engine.start (x : Engine) (n : Nat) : Nat := x.base n - x.offset n

/-- BREV needs a modulo length that is a power of two. -/
def Engine.brevOk (x : Engine) (n : Nat) (a : AddrMode) : Bool := a != .brev || x.modulo n == 2 ^ Nat.log2 (x.modulo n)

/-- The effective address. -/
def Engine.ea (x : Engine) (n : Nat) (d : Int) (a : AddrMode) : Nat :=
  let o := ((x.offset n + d) % x.modulo n).toNat
  match a with
  | .linear => wrapTo 16 (x.base n + d)
  | .ring => (x.start n + o) % 65536
  | .brev => (x.start n + reverseBits (Nat.log2 (x.modulo n)) o) % 65536

/-- A base advanced under the INC rule. -/
def Engine.advance (x : Engine) (n : Nat) (k : Int) (a : AddrMode) : Engine :=
  match a with
  | .linear => x.setBase n (wrapTo 16 (x.base n + k))
  | _ => x.setBase n ((x.start n + ((x.offset n + k) % x.modulo n).toNat) % 65536)

/-- The mode of an access of k words: more than one word is always linear. (log 57: DEDUCED) -/
def Engine.modeOf (x : Engine) (n k : Nat) (a : AddrMode) : AddrMode := if k = 1 then x.mode n a else .linear

/-- Base, count and displacement of operands. -/
def mBase (m : MByte) : Nat := m.n.toNat
def mCount (m : MByte) : Nat := m.km1.toNat + 1
def dispInt (d : Disp) : Int :=
  match d with
  | .short v => v.toInt
  | .long v => v.toInt
def dispLen (d : Disp) : Nat :=
  match d with
  | .short _ => 1
  | .long _ => 2

/-- The operand is legal with an Address prefix: not when its count is above 1. -/
def countOk (k : Nat) (a : AddrMode) : Bool := a == .linear || k == 1

/-- Words from address a on all lie in data RAM (R240). -/
def dataOk (e a k : Nat) : Bool := decide (e = 72) || decide (a + k ≤ 0x2000)

/-! ### Special registers (R271) -/

/-- A special register code is listed. -/
def specialOk (r : Nat) : Bool := decide (r ≤ 0x1D)

/-- What MFR pushes. -/
def Engine.special (x : Engine) (e r : Nat) : Nat :=
  if r < 8 then x.base r
  else if r < 16 then (tval 0 x.ml (r - 8)).toNat
  else
    match r with
    | 0x10 => x.brf.toNat
    | 0x11 => x.lr.toNat % 65536
    | 0x12 => if e = 72 then x.lr.toNat / 65536 else 0
    | 0x13 => x.rc.toNat
    | 0x14 => x.sr.toNat
    | 0x15 => if e = 72 then x.epc.toNat % 65536 else x.epc.toNat % 32768
    | 0x16 => if e = 72 then x.epc.toNat / 65536 else 0
    | 0x17 => x.esr.toNat
    | 0x1C => x.pred.toNat ||| 1
    | 0x1D => if e = 72 then 0xFF else e
    | _ => (tval 0 x.win (r - 0x18)).toNat

/-- The bits of SR an instruction writes: the flags and IE, and MODE on the Col pair (R238, R261). -/
def srMask (e : Nat) : Half := if e = 72 then 0x050F else 0x010F

/-- What MTR writes. -/
def Engine.setSpecial (x : Engine) (e r : Nat) (v : Half) : Engine :=
  if r < 8 then x.setBase r v.toNat
  else if r < 16 then { x with ml := tset 0 x.ml (r - 8) v }
  else
    match r with
    | 0x10 => { x with brf := v.setWidth 8 }
    | 0x11 => { x with lr := BitVec.ofNat 18 (x.lr.toNat / 65536 * 65536 + v.toNat) }
    | 0x12 => if e = 72 then { x with lr := BitVec.ofNat 18 (x.lr.toNat % 65536 + v.toNat % 4 * 65536) } else x
    | 0x13 => { x with rc := v }
    | 0x14 => { x with sr := (x.sr &&& ~~~ (srMask e)) ||| (v &&& srMask e) }
    | 0x15 => { x with epc := BitVec.ofNat 18 (if e = 72 then x.epc.toNat / 65536 * 65536 + v.toNat else v.toNat % 32768) }
    | 0x16 => if e = 72 then { x with epc := BitVec.ofNat 18 (x.epc.toNat % 65536 + v.toNat % 4 * 65536) } else x
    | 0x17 => x
    | 0x1C => { x with pred := v.setWidth 8 ||| 1 }
    | 0x1D => x
    | _ => { x with win := tset 0 x.win (r - 0x18) v }

end Sys2Proof.Machine
end

