-- ==== Sys2Proof/Machine/Icevo.lean ====
section
/-! DEFINITION. How an engine carries out an instruction (R262 to R266): the checks in their order, the cost, and the next address;
with the instructions on the stack, arithmetic, predicates and control (R272). An engine instruction arrives as a command and acts
at the engine's PC; an engine that is not running ignores it. -/

namespace Sys2Proof.Machine

/-- What the tables of R272 and R274 state of an instruction: bytes without leading bytes, cycles, the leading bytes it accepts, its
page, whether its operands are in range, the entries it takes and leaves, and whether it is TDONE. -/
structure Insn where
  len    : Nat
  cost   : Nat
  pops   : Nat
  pushes : Nat
  wideOk : Bool
  addrOk : Bool
  repOk  : Bool
  svc    : Bool
  legal  : Bool
  ends   : Bool
deriving DecidableEq, Repr

/-- An instruction that accepts a guard alone. -/
def insn (len cost pops pushes : Nat) : Insn :=
  { len := len, cost := cost, pops := pops, pushes := pushes, wideOk := false, addrOk := false, repOk := false, svc := false, legal := true,
    ends := false }

/-- An instruction that accepts WIDE, its operands and results being values. -/
def insnW (p : Pfx) (len cost pops pushes : Nat) : Insn :=
  { insn len cost (pops * entries p.wide) (pushes * entries p.wide) with wideOk := true }

/-- What an instruction does once it may act: a trap with its cause and INFO, the machine after it, that with a jump, or that where the engine
leaves it at an interruption point within it, with the cycles spent and the address at which an entry finds the PC (R252). -/
inductive Eff where
  | trap (s : State) (cause info : Nat)
  | done (s : State)
  | jump (s : State) (target : Nat)
  | cut (s : State) (cycles pc : Nat)

/-- Number of leading bytes. -/
def leadBytes (p : Pfx) (svc : Bool) : Nat :=
  p.guard.isSome.toNat + p.rep.toNat + svc.toNat + p.wide.toNat + (p.addr != .linear).toNat

/-- The next address (R262). -/
def nextPc (e : Nat) (p : Pfx) (i : Insn) (pc : BitVec 18) : Nat := (pc.toNat + leadBytes p i.svc + i.len) % codeSize e

/-- INFO of the ILLEGAL trap of checks 3 to 6 of R264, if one fails. (log 54: DEDUCED) -/
def illegal (e : Nat) (x : Engine) (p : Pfx) (i : Insn) : Option Nat :=
  if i.svc && p.rep then some 2
  else if i.svc && !x.sr.getLsbD srMode then some 3
  else if (p.wide && !i.wideOk) || (p.addr != .linear && !i.addrOk) || (p.rep && !i.repOk) || !i.legal then some 0
  else if i.ends && (x.run.isNone || e == 72) then some 4
  else none

/-- Cycles left of a run's budget, where it counts (R256). -/
def Engine.left (x : Engine) : Option Nat :=
  match x.run with
  | none => none
  | some r => if r.budget = 0 ∨ x.sr.getLsbD srIH then none else some (r.budget - r.used)

/-- n cycles exceed what is left. -/
def Engine.exceeds (x : Engine) (n : Nat) : Bool :=
  match x.left with
  | none => false
  | some l => decide (l < n)

/-- n cycles of an instruction begun by engine x, charged to the engine y that it leaves (R256, R258). (log 55: DEDUCED) -/
def Engine.charge (x y : Engine) (n : Nat) : Engine :=
  let z := { y with cycles := if x.st = .task ∨ x.st = .handler then y.cycles + BitVec.ofNat 48 n else y.cycles }
  if x.sr.getLsbD srIH then z else z.worked n

/-- The instruction of engine x ends: its cycles are charged, and the engine goes on at an address. (log 54: DEDUCED) -/
def State.endInsn (s : State) (e : Nat) (x : Engine) (cost pc : Nat) : State :=
  s.mapHub (fun h => h.setEng e { x.charge (h.eng e) cost with pc := BitVec.ofNat 18 pc })

/-- A machine that carries out an instruction of engine e: the checks of R264 in their order, the cycle that would exceed a budget
(R256), and the effect. (log 54: DEDUCED) (log 94: DESIGN CHOICE) -/
def State.icevo (s : State) (e : Nat) (p : Pfx) (i : Insn) (body : State → Eff) : State :=
  let x := s.hub.eng e
  if e > 72 || !x.st.runs then s
  else if x.broken then s.mapHub (fun h => h.breakIn e)
  else if x.left = some 0 then s.trapTo e 11 0
  else
    match illegal e x p i with
    | some n => s.trapTo e 2 n
    | none =>
      let late := x.exceeds i.cost
      if !x.guard p then (if late then s.trapTo e 11 0 else s.endInsn e x i.cost (nextPc e p i x.pc))
      else if x.stack.length < i.pops then s.trapTo e 4 (i.pops - x.stack.length)
      else if x.stack.length - i.pops + i.pushes > 16 then s.trapTo e 3 (x.stack.length - i.pops + i.pushes - 16)
      else
        match body s with
        | .trap s1 c n => s1.trapTo e c n
        | .done s1 => if late then s.trapTo e 11 0 else s1.endInsn e x i.cost (nextPc e p i x.pc)
        | .jump s1 t => if late then s.trapTo e 11 0 else s1.endInsn e x i.cost (t % codeSize e)
        | .cut s1 n pc => if x.exceeds n then s.trapTo e 11 0 else s1.endInsn e x n pc

/-- An instruction carried out, with the SID 0 records of a trap stored. (log 54: DEDUCED) -/
def State.insn (s : State) (e : Nat) (p : Pfx) (i : Insn) (body : State → Eff) : Host.Outcome State Fault Refusal :=
  .next (s.icevo e p i body).settle

/-- One that changes its engine alone. -/
def State.pure (s : State) (e : Nat) (p : Pfx) (i : Insn) (f : Engine → Engine) : Host.Outcome State Fault Refusal :=
  s.insn e p i (fun t => .done (t.mapHub (fun h => h.setEng e (f (h.eng e)))))

/-- One that changes its engine and jumps. -/
def State.branch (s : State) (e : Nat) (p : Pfx) (i : Insn) (f : Engine → Engine × Nat) : Host.Outcome State Fault Refusal :=
  s.insn e p i (fun t => let (y, pc) := f (t.hub.eng e); .jump (t.mapHub (fun h => h.setEng e y)) pc)

/-! ### Stack and constants -/

/-- The stack changed. -/
def Engine.onStack (f : List Half → List Half) (x : Engine) : Engine := { x with stack := f x.stack }

def execNop (e : Nat) (p : Pfx) (s : State) : Host.Outcome State Fault Refusal := s.pure e p (insn 1 1 0 0) id

def execDup (e : Nat) (p : Pfx) (s : State) : Host.Outcome State Fault Refusal :=
  s.pure e p (insnW p 1 1 1 2) (Engine.onStack (fun l => l.take (entries p.wide) ++ l))

def execDrop (e : Nat) (p : Pfx) (s : State) : Host.Outcome State Fault Refusal :=
  s.pure e p (insnW p 1 1 1 0) (Engine.onStack (fun l => l.drop (entries p.wide)))

/-- The top n entries, and the n below them, exchanged. -/
def swapTop (n : Nat) (l : List Half) : List Half := (l.drop n).take n ++ l.take n ++ l.drop (2 * n)

def execSwap (e : Nat) (p : Pfx) (s : State) : Host.Outcome State Fault Refusal :=
  s.pure e p (insnW p 1 1 2 2) (Engine.onStack (swapTop (entries p.wide)))

def execOver (e : Nat) (p : Pfx) (s : State) : Host.Outcome State Fault Refusal :=
  s.pure e p (insnW p 1 1 2 3) (Engine.onStack (fun l => (l.drop (entries p.wide)).take (entries p.wide) ++ l))

def execRot (e : Nat) (p : Pfx) (s : State) : Host.Outcome State Fault Refusal :=
  s.pure e p (insn 1 1 3 3) (Engine.onStack (fun l => (l.drop 2).take 1 ++ l.take 2 ++ l.drop 3))

def execNip (e : Nat) (p : Pfx) (s : State) : Host.Outcome State Fault Refusal :=
  s.pure e p (insnW p 1 1 2 1) (Engine.onStack (fun l => l.take (entries p.wide) ++ l.drop (2 * entries p.wide)))

def execPick (e : Nat) (p : Pfx) (u : Byte) (s : State) : Host.Outcome State Fault Refusal :=
  s.pure e p { insn 2 1 (u.toNat + 1) (u.toNat + 2) with legal := decide (u.toNat ≤ 15) }
    (Engine.onStack (fun l => l.getD u.toNat 0 :: l))

def execLit8 (e : Nat) (p : Pfx) (v : Byte) (s : State) : Host.Outcome State Fault Refusal :=
  s.pure e p (insn 2 1 0 1) (Engine.onStack (fun l => v.signExtend 16 :: l))

def execLit16 (e : Nat) (p : Pfx) (v : Half) (s : State) : Host.Outcome State Fault Refusal :=
  s.pure e p (insn 3 1 0 1) (Engine.onStack (fun l => v :: l))

def execLit32 (e : Nat) (p : Pfx) (v : Word) (s : State) : Host.Outcome State Fault Refusal :=
  s.pure e p (insn 5 1 0 2) (Engine.onStack (fun l => pushValue true v.toNat l))

def execDepth (e : Nat) (p : Pfx) (s : State) : Host.Outcome State Fault Refusal :=
  s.pure e p (insn 1 1 0 1) (Engine.onStack (fun l => BitVec.ofNat 16 l.length :: l))

/-! ### Arithmetic and logic -/

/-- ( a b -- r ): a function of a, b and SR gives the result and the new SR. -/
def Engine.binary (wide : Bool) (f : Nat → Nat → Half → Nat × Half) (x : Engine) : Engine :=
  let (b, l1) := popValue wide x.stack
  let (a, l2) := popValue wide l1
  let (r, sr) := f a b x.sr
  { x with stack := pushValue wide r l2, sr := sr }

/-- ( a -- r ). -/
def Engine.unary (wide : Bool) (f : Nat → Half → Nat × Half) (x : Engine) : Engine :=
  let (a, l) := popValue wide x.stack
  let (r, sr) := f a x.sr
  { x with stack := pushValue wide r l, sr := sr }

/-- A result with C and V, and the flags of entry CZNV. -/
def withCZNV (w : Nat) (r : Nat × Bool × Bool) (sr : Half) : Nat × Half := (r.1, flagsCZNV w r.1 r.2.1 r.2.2 sr)

/-- The carry flag as a number. -/
def carryIn (sr : Half) : Nat := (sr.getLsbD srC).toNat

def execAdd (e : Nat) (p : Pfx) (s : State) : Host.Outcome State Fault Refusal :=
  s.pure e p (insnW p 1 1 2 1) (Engine.binary p.wide (fun a b => withCZNV (widthOf p.wide) (sumOf (widthOf p.wide) a b 0)))

def execSub (e : Nat) (p : Pfx) (s : State) : Host.Outcome State Fault Refusal :=
  s.pure e p (insnW p 1 1 2 1) (Engine.binary p.wide (fun a b => withCZNV (widthOf p.wide) (differenceOf (widthOf p.wide) a b 1)))

def execAdc (e : Nat) (p : Pfx) (s : State) : Host.Outcome State Fault Refusal :=
  s.pure e p (insnW p 1 1 2 1)
    (Engine.binary p.wide (fun a b sr => withCZNV (widthOf p.wide) (sumOf (widthOf p.wide) a b (carryIn sr)) sr))

def execSbc (e : Nat) (p : Pfx) (s : State) : Host.Outcome State Fault Refusal :=
  s.pure e p (insnW p 1 1 2 1)
    (Engine.binary p.wide (fun a b sr => withCZNV (widthOf p.wide) (differenceOf (widthOf p.wide) a b (carryIn sr)) sr))

def execNeg (e : Nat) (p : Pfx) (s : State) : Host.Outcome State Fault Refusal :=
  s.pure e p (insnW p 1 1 1 1) (Engine.unary p.wide (fun a => withCZNV (widthOf p.wide) (differenceOf (widthOf p.wide) 0 a 1)))

/-- A signed result limited to the range, with entry ZNV. -/
def limited (w : Nat) (v : Int) (sr : Half) : Nat × Half :=
  let r := wrapTo w (clampTo w v)
  (r, flagsZNV w r (!fits w v) sr)

def execAdds (e : Nat) (p : Pfx) (s : State) : Host.Outcome State Fault Refusal :=
  s.pure e p (insnW p 1 1 2 1)
    (Engine.binary p.wide (fun a b => limited (widthOf p.wide) (signed (widthOf p.wide) a + signed (widthOf p.wide) b)))

def execSubs (e : Nat) (p : Pfx) (s : State) : Host.Outcome State Fault Refusal :=
  s.pure e p (insnW p 1 1 2 1)
    (Engine.binary p.wide (fun a b => limited (widthOf p.wide) (signed (widthOf p.wide) a - signed (widthOf p.wide) b)))

def execAbs (e : Nat) (p : Pfx) (s : State) : Host.Outcome State Fault Refusal :=
  s.pure e p (insnW p 1 1 1 1) (Engine.unary p.wide (fun a => limited (widthOf p.wide) |signed (widthOf p.wide) a|))

/-- A result with entry ZN. -/
def withZN (w r : Nat) (sr : Half) : Nat × Half := (r, flagsZN w r sr)

def execMin (e : Nat) (p : Pfx) (s : State) : Host.Outcome State Fault Refusal :=
  s.pure e p (insnW p 1 1 2 1) (Engine.binary p.wide (fun a b =>
    withZN (widthOf p.wide) (if signed (widthOf p.wide) b < signed (widthOf p.wide) a then b else a)))

def execMax (e : Nat) (p : Pfx) (s : State) : Host.Outcome State Fault Refusal :=
  s.pure e p (insnW p 1 1 2 1) (Engine.binary p.wide (fun a b =>
    withZN (widthOf p.wide) (if signed (widthOf p.wide) a < signed (widthOf p.wide) b then b else a)))

def execMinu (e : Nat) (p : Pfx) (s : State) : Host.Outcome State Fault Refusal :=
  s.pure e p (insnW p 1 1 2 1) (Engine.binary p.wide (fun a b => withZN (widthOf p.wide) (Nat.min a b)))

def execMaxu (e : Nat) (p : Pfx) (s : State) : Host.Outcome State Fault Refusal :=
  s.pure e p (insnW p 1 1 2 1) (Engine.binary p.wide (fun a b => withZN (widthOf p.wide) (Nat.max a b)))

def execAnd (e : Nat) (p : Pfx) (s : State) : Host.Outcome State Fault Refusal :=
  s.pure e p (insnW p 1 1 2 1) (Engine.binary p.wide (fun a b => withZN (widthOf p.wide) (a &&& b)))

def execOr (e : Nat) (p : Pfx) (s : State) : Host.Outcome State Fault Refusal :=
  s.pure e p (insnW p 1 1 2 1) (Engine.binary p.wide (fun a b => withZN (widthOf p.wide) (a ||| b)))

def execXor (e : Nat) (p : Pfx) (s : State) : Host.Outcome State Fault Refusal :=
  s.pure e p (insnW p 1 1 2 1) (Engine.binary p.wide (fun a b => withZN (widthOf p.wide) (a ^^^ b)))

def execNot (e : Nat) (p : Pfx) (s : State) : Host.Outcome State Fault Refusal :=
  s.pure e p (insnW p 1 1 1 1) (Engine.unary p.wide (fun a => withZN (widthOf p.wide) (2 ^ widthOf p.wide - 1 - a)))

/-! ### Shifts, multiply and divide -/

/-- A shift by c: ZN, and C the last bit shifted out, or unchanged when c is 0 (R267). -/
def withShift (w c : Nat) (r : Nat × Bool) (sr : Half) : Nat × Half :=
  let f := flagsZN w r.1 sr
  (r.1, if c = 0 then f else putBit f srC r.2)

/-- ( a c -- r ): the count stays single, modulo 64. -/
def Engine.shifted (wide : Bool) (f : Nat → Nat → Nat → Nat × Bool) (x : Engine) : Engine :=
  let c := (x.stack.getD 0 0).toNat % 64
  Engine.unary wide (fun a => withShift (widthOf wide) c (f (widthOf wide) a c)) { x with stack := x.stack.drop 1 }

/-- The table entry of a shift by a count on the stack, and by an immediate. -/
def shiftInsn (p : Pfx) : Insn := { insn 1 1 (entries p.wide + 1) (entries p.wide) with wideOk := true }
def shiftImm (p : Pfx) (u : Byte) : Insn := { insnW p 2 1 1 1 with legal := decide (u.toNat ≤ 63) }

def execShl (e : Nat) (p : Pfx) (s : State) : Host.Outcome State Fault Refusal := s.pure e p (shiftInsn p) (Engine.shifted p.wide shiftLeft)
def execShr (e : Nat) (p : Pfx) (s : State) : Host.Outcome State Fault Refusal := s.pure e p (shiftInsn p) (Engine.shifted p.wide shiftRight)
def execSar (e : Nat) (p : Pfx) (s : State) : Host.Outcome State Fault Refusal := s.pure e p (shiftInsn p) (Engine.shifted p.wide shiftSigned)

/-- A shift by an immediate. -/
def Engine.shiftedBy (wide : Bool) (f : Nat → Nat → Nat → Nat × Bool) (c : Nat) : Engine → Engine :=
  Engine.unary wide (fun a => withShift (widthOf wide) c (f (widthOf wide) a c))

def execShli (e : Nat) (p : Pfx) (u : Byte) (s : State) : Host.Outcome State Fault Refusal :=
  s.pure e p (shiftImm p u) (Engine.shiftedBy p.wide shiftLeft u.toNat)
def execShri (e : Nat) (p : Pfx) (u : Byte) (s : State) : Host.Outcome State Fault Refusal :=
  s.pure e p (shiftImm p u) (Engine.shiftedBy p.wide shiftRight u.toNat)
def execSari (e : Nat) (p : Pfx) (u : Byte) (s : State) : Host.Outcome State Fault Refusal :=
  s.pure e p (shiftImm p u) (Engine.shiftedBy p.wide shiftSigned u.toNat)

/-- The two top values replaced by a 32-bit product; ZN of it, C and V cleared. -/
def Engine.multiply (wide : Bool) (f : Nat → Nat → Nat) (x : Engine) : Engine :=
  let (b, l1) := popValue wide x.stack
  let (a, l2) := popValue wide l1
  { x with stack := pushValue true (f a b) l2, sr := flagsCZNV 32 (f a b) false false x.sr }

/-- MUL: the signed product of 16-bit values, or with WIDE the low 32 bits of that of 32-bit values. -/
def execMul (e : Nat) (p : Pfx) (s : State) : Host.Outcome State Fault Refusal :=
  s.pure e p { insn 1 (if p.wide then 3 else 2) (2 * entries p.wide) 2 with wideOk := true }
    (Engine.multiply p.wide (fun a b => wrapTo 32 (signed (widthOf p.wide) a * signed (widthOf p.wide) b)))

def execMulu (e : Nat) (p : Pfx) (s : State) : Host.Outcome State Fault Refusal :=
  s.pure e p (insn 1 2 2 2) (Engine.multiply false (fun a b => a * b))

/-- A division: dividend and divisor, signed or not; q in its low 16 bits, r on top, V when q does not fit (R272). -/
def Engine.divided (sgn long : Bool) (x : Engine) : Engine :=
  let (b, l1) := popValue false x.stack
  let (a, l2) := popValue long l1
  let n : Int := if sgn then signed (widthOf long) a else a
  let d : Int := if sgn then signed 16 b else b
  let q := n.tdiv d
  let r := n.tmod d
  let v : Bool := if sgn then !fits 16 q else decide (q > 65535)
  let q16 := wrapTo 16 q
  { x with stack := BitVec.ofInt 16 r :: BitVec.ofNat 16 q16 :: l2, sr := flagsCZNV 16 q16 false v x.sr }

/-- Cycles of a division. -/
def divideCost (long : Bool) : Nat := if long then 34 else 18

/-- The body of a division: a divisor of 0 traps DIVZERO. With an interrupt due the division is abandoned after some of its cycles, to start
afresh (R252). (log 54: DEDUCED) -/
def State.divide (e : Nat) (sgn long : Bool) (s : State) : Eff :=
  let x := s.hub.eng e
  if x.stack.getD 0 0 = 0 then .trap s 6 0
  else if s.hub.interruptDue e then
    let (v, h) := s.hub.fresh
    .cut { s with hub := h } (1 + v.toNat % (divideCost long - 1)) x.pc.toNat
  else .done (s.mapHub (fun h => h.setEng e (x.divided sgn long)))

def execDiv (e : Nat) (p : Pfx) (s : State) : Host.Outcome State Fault Refusal := s.insn e p (insn 1 (divideCost false) 2 2) (State.divide e true false)
def execDivu (e : Nat) (p : Pfx) (s : State) : Host.Outcome State Fault Refusal := s.insn e p (insn 1 (divideCost false) 2 2) (State.divide e false false)
def execDivl (e : Nat) (p : Pfx) (s : State) : Host.Outcome State Fault Refusal := s.insn e p (insn 1 (divideCost true) 3 2) (State.divide e true true)
def execDivlu (e : Nat) (p : Pfx) (s : State) : Host.Outcome State Fault Refusal := s.insn e p (insn 1 (divideCost true) 3 2) (State.divide e false true)

def execAddi (e : Nat) (p : Pfx) (v : Byte) (s : State) : Host.Outcome State Fault Refusal :=
  s.pure e p (insnW p 2 1 1 1) (Engine.unary p.wide (fun a =>
    withCZNV (widthOf p.wide) (sumOf (widthOf p.wide) a (wrapTo (widthOf p.wide) v.toInt) 0)))

def execSext (e : Nat) (p : Pfx) (s : State) : Host.Outcome State Fault Refusal :=
  s.pure e p (insn 1 1 1 2) (Engine.onStack (fun l => (if (l.getD 0 0).msb then 0xFFFF else 0) :: l))

def execZext (e : Nat) (p : Pfx) (s : State) : Host.Outcome State Fault Refusal :=
  s.pure e p (insn 1 1 1 2) (Engine.onStack (fun l => 0 :: l))

/-! ### Predicates -/

/-- CMP: the condition on the flags of a - b. -/
def Engine.compare (wide : Bool) (c : CByte) (x : Engine) : Engine :=
  let (b, l1) := popValue wide x.stack
  let (a, l2) := popValue wide l1
  let sr := (withCZNV (widthOf wide) (differenceOf (widthOf wide) a b 1) x.sr).2
  Engine.setP { x with stack := l2, sr := sr } c.d.toNat (condition c.cond.toNat sr)

/-- Conditions 14 and 15 are reserved (R270). -/
def condOk (c : CByte) : Bool := decide (c.cond.toNat ≤ 13)

def execCmp (e : Nat) (p : Pfx) (c : CByte) (s : State) : Host.Outcome State Fault Refusal :=
  s.pure e p { insnW p 2 1 2 0 with legal := condOk c } (Engine.compare p.wide c)

def execTst (e : Nat) (p : Pfx) (d : BitVec 3) (s : State) : Host.Outcome State Fault Refusal :=
  s.pure e p (insnW p 2 1 1 0) (fun x =>
    let (a, l) := popValue p.wide x.stack
    Engine.setP { x with stack := l, sr := flagsZN (widthOf p.wide) a x.sr } d.toNat (a != 0))

/-- Px AND Py, OR, XOR, or AND NOT Py. -/
def logicOf (op : Nat) (a b : Bool) : Bool :=
  match op with
  | 0 => a && b
  | 1 => a || b
  | 2 => a != b
  | _ => a && !b

def execPlog (e : Nat) (p : Pfx) (l : PLogic) (s : State) : Host.Outcome State Fault Refusal :=
  s.pure e p (insn 3 1 0 0) (fun x => x.setP l.d.toNat (logicOf l.op.toNat (x.p l.x.toNat) (x.p l.y.toNat)))

def execPset (e : Nat) (p : Pfx) (d : BitVec 3) (v : Bool) (s : State) : Host.Outcome State Fault Refusal :=
  s.pure e p (insn 2 1 0 0) (fun x => x.setP d.toNat v)

def execPushp (e : Nat) (p : Pfx) (d : BitVec 3) (s : State) : Host.Outcome State Fault Refusal :=
  s.pure e p (insn 2 1 0 1) (fun x => { x with stack := BitVec.ofNat 16 (x.p d.toNat).toNat :: x.stack })

def execPopp (e : Nat) (p : Pfx) (d : BitVec 3) (s : State) : Host.Outcome State Fault Refusal :=
  s.pure e p (insn 2 1 1 0) (fun x => Engine.setP { x with stack := x.stack.drop 1 } d.toNat (x.stack.getD 0 0 != 0))

def execPflag (e : Nat) (p : Pfx) (c : CByte) (s : State) : Host.Outcome State Fault Refusal :=
  s.pure e p { insn 2 1 0 0 with legal := condOk c } (fun x => x.setP c.d.toNat (condition c.cond.toNat x.sr))

/-! ### Control -/

def execMfr (e : Nat) (p : Pfx) (r : Byte) (s : State) : Host.Outcome State Fault Refusal :=
  s.pure e p { insn 2 1 0 1 with legal := specialOk r.toNat }
    (fun x => { x with stack := BitVec.ofNat 16 (x.special e r.toNat) :: x.stack })

def execMtr (e : Nat) (p : Pfx) (r : Byte) (s : State) : Host.Outcome State Fault Refusal :=
  s.pure e p { insn 2 1 1 0 with legal := specialOk r.toNat }
    (fun x => Engine.setSpecial { x with stack := x.stack.drop 1 } e r.toNat (x.stack.getD 0 0))

/-- An offset from an address, reduced as R262 reduces it. -/
def relTo (e pc : Nat) (d : Int) : Nat := (((pc : Int) + d) % codeSize e).toNat

def execBr (e : Nat) (p : Pfx) (rel : Disp) (s : State) : Host.Outcome State Fault Refusal :=
  let i := insn (1 + dispLen rel) 3 0 0
  s.branch e p i (fun x => (x, relTo e (nextPc e p i x.pc) (dispInt rel)))

/-- LR as it holds a code address. -/
def Engine.link (x : Engine) (pc : Nat) : Engine := { x with lr := BitVec.ofNat 18 pc }

def execBrl (e : Nat) (p : Pfx) (rel : Half) (s : State) : Host.Outcome State Fault Refusal :=
  let i := insn 3 3 0 0
  s.branch e p i (fun x => (x.link (nextPc e p i x.pc), relTo e (nextPc e p i x.pc) rel.toInt))

def execBra (e : Nat) (p : Pfx) (target : BitVec 24) (s : State) : Host.Outcome State Fault Refusal :=
  s.branch e p (insn 4 3 0 0) (fun x => (x, target.toNat))

def execBrla (e : Nat) (p : Pfx) (target : BitVec 24) (s : State) : Host.Outcome State Fault Refusal :=
  let i := insn 4 3 0 0
  s.branch e p i (fun x => (x.link (nextPc e p i x.pc), target.toNat))

def execBri (e : Nat) (p : Pfx) (s : State) : Host.Outcome State Fault Refusal :=
  s.branch e p (insn 1 3 2 0) (fun x => ({ x with stack := x.stack.drop 2 }, (popValue true x.stack).1))

def execRet (e : Nat) (p : Pfx) (s : State) : Host.Outcome State Fault Refusal :=
  s.branch e p (insn 1 3 0 0) (fun x => (x, x.lr.toNat))

def execLoop (e : Nat) (p : Pfx) (rel : Byte) (s : State) : Host.Outcome State Fault Refusal :=
  let i := insn 2 3 0 0
  s.branch e p i (fun x =>
    let n := nextPc e p i x.pc
    ({ x with rc := x.rc - 1 }, if x.rc - 1 = 0 then n else relTo e n rel.toInt))

/-- RETI: the flags and IE from ESR, IH cleared, on at EPC (R250). -/
def Engine.returned (x : Engine) : Engine :=
  { x with sr := (x.sr &&& 0x0400) ||| BitVec.ofNat 16 ((x.esr.toNat / 16) % 16) ||| (x.esr &&& 0x0100),
           st := if x.run.isSome then .task else .idle }

def execReti (e : Nat) (p : Pfx) (s : State) : Host.Outcome State Fault Refusal :=
  s.branch e p (insn 1 3 0 0) (fun x => (x.returned, x.epc.toNat))

/-- What a run's end hands on: OUT becomes the record to store, or there is none, or the stream goes to FAULT (R256). -/
def Hub.runResult (h : Hub) (d : DispatchEntry) (u : Nat) : Hub :=
  match u with
  | 0 => h.runLeaves d .result
  | 1 => h.runVoid d
  | _ => h.runFault d

/-- The third opinion of a vote has its result; a spare that ran it returns to RESET, and no record is handed on (R286). (log 138: DESIGN CHOICE) -/
def State.endThird (s : State) (e u : Nat) : State :=
  let r := s.outRecord e
  s.mapHub (fun h =>
    let h1 := h.setEng e { h.eng e with st := if h.unitState 0x50 e = 2 then .reset else .idle, run := none }
    (h1.bump (engReg e 0x18) 0 16 1).setPair (fun x => { x with third := x.third.map (fun t => if t.eng = e then { t with result := some (u, r) } else t) }))

/-- The run ends with an operand of TDONE; a hold of the engine shadow keeps its result (R256, R285). -/
def State.endRun (s : State) (e : Nat) (u : Nat) : State :=
  let x := s.hub.eng e
  match x.run with
  | none => s
  | some r =>
    if r.entry.third then s.endThird e u else
    let h := (s.hub.setEng e { x with st := .idle, run := none }).bump (engReg e 0x18) 0 16 1
    let d := r.entry
    let h1 := if u = 0 then { h with flight := markFlight d.sid d.seq (fun f => { f with rcd := s.outRecord e }) h.flight } else h
    if h1.engHeld e then { s with hub := { h1 with flight := markFlight d.sid d.seq (fun f => { f with stage := .held u }) h1.flight } }
    else
      match (h1.shd 3).live with
      | some n => { s with hub := (if h1.physOf 0x50 n = e then h1.agree 3 n else h1).runResult d u }
      | none => { s with hub := h1.runResult d u }

def execTdone (e : Nat) (p : Pfx) (u : Byte) (s : State) : Host.Outcome State Fault Refusal :=
  s.insn e p { insn 2 3 0 0 with legal := decide (u.toNat ≤ 2), ends := true } (fun t => .done (t.endRun e u.toNat))

/-- TRAP raises SOFT with its operand as INFO, BRK raises BREAK. -/
def execTrap (e : Nat) (p : Pfx) (u : Byte) (s : State) : Host.Outcome State Fault Refusal :=
  s.insn e p { insn 2 4 0 0 with legal := decide (u.toNat ≤ 127) } (fun t => .trap t 13 u.toNat)

def execBrk (e : Nat) (p : Pfx) (s : State) : Host.Outcome State Fault Refusal := s.insn e p (insn 1 4 0 0) (fun t => .trap t 12 0)

/-- INFO of an instruction that the tables do not hold: an undefined opcode or operand (0), a reserved leading byte (1), two of one group (2),
or an undefined opcode or operand of the service page (3), which with MODE 1 is the first case (R264). -/
def Engine.undefinedInfo (x : Engine) (kind : Nat) : Nat := if kind = 3 ∧ x.sr.getLsbD srMode then 0 else kind

/-- UNDEFINED_OPCODE (R264, R273). With no cycle left of its budget the engine traps BUDGET before it begins (R256). -/
def execUndefinedOpcode (e : Nat) (info : Nat) (s : State) : Host.Outcome State Fault Refusal :=
  if e ≤ 72 ∧ info ≤ 3 ∧ (s.hub.eng e).st.runs then
    .next (if (s.hub.eng e).broken then s.mapHub (fun h => h.breakIn e) else if (s.hub.eng e).left = some 0 then s.trapTo e 11 0 else s.trapTo e 2 ((s.hub.eng e).undefinedInfo info)).settle
  else .next s

end Sys2Proof.Machine
end

