-- ==== Sys2Proof/Machine/IcevoMem.lean ====
section
/-! DEFINITION. The Icevo instructions on data memory and code RAM, the service page, and the string instructions on data memory
under REP (R241, R242, R269, R272, R274 to R276). -/

namespace Sys2Proof.Machine

/-! ### Loads and stores -/

/-- The words of data RAM from address a on, as the merged view (R241). -/
def State.dataWords (s : State) (e a k : Nat) : List Half := (List.range k).map (fun i => s.dataWord e ((a + i) % 65536))

/-- The table entry of an access through operand byte m. -/
def memInsn (p : Pfx) (m : MByte) (len cost pops pushes : Nat) : Insn :=
  { insn len cost pops pushes with addrOk := true, legal := countOk (mCount m) p.addr }

/-- The mode, address and base update of an access: none where BREV does not apply (R269). -/
def Engine.access (x : Engine) (p : Pfx) (m : MByte) (d : Int) : Option (Nat × Engine) :=
  let n := mBase m
  let k := mCount m
  let a := x.modeOf n k p.addr
  if x.brevOk n a then some (x.ea n d a, if m.inc then x.advance n k a else x) else none

/-- LD: k words pushed, the lowest-addressed first. -/
def State.loadData (s : State) (e : Nat) (p : Pfx) (m : MByte) (d : Int) : Eff :=
  let x := s.hub.eng e
  match x.access p m d with
  | none => .trap s 5 (mBase m)
  | some (a, y) =>
    if dataOk e a (mCount m) then
      .done (s.mapHub (fun h => h.setEng e { y with stack := pushWords (s.dataWords e a (mCount m)) y.stack }))
    else .trap s 5 (mBase m)

def execLd (e : Nat) (p : Pfx) (m : MByte) (d : Disp) (s : State) : Host.Outcome State Fault Refusal :=
  s.insn e p (memInsn p m (2 + dispLen d) (if mCount m ≤ 4 then 2 else 3) 0 (mCount m)) (fun t => t.loadData e p m (dispInt d))

/-- ST: k words popped, the top one to the highest address, into the store buffer. -/
def State.storeData (s : State) (e : Nat) (p : Pfx) (m : MByte) (d : Int) : Eff :=
  let x := s.hub.eng e
  match x.access p m d with
  | none => .trap s 5 (mBase m)
  | some (a, y) =>
    if dataOk e a (mCount m) then
      .done (State.pushStore (s.mapHub (fun h => h.setEng e { y with stack := y.stack.drop (mCount m) })) e a (topWords (mCount m) x.stack))
    else .trap s 5 (mBase m)

def execSt (e : Nat) (p : Pfx) (m : MByte) (d : Disp) (s : State) : Host.Outcome State Fault Refusal :=
  s.insn e p (memInsn p m (2 + dispLen d) 1 (mCount m) 0) (fun t => t.storeData e p m (dispInt d))

/-- LEA: the effective address pushed, without the check of R240. (log 57: DEDUCED) -/
def State.pushEa (s : State) (e : Nat) (p : Pfx) (m : MByte) (d : Int) : Eff :=
  match (s.hub.eng e).access p m d with
  | none => .trap s 5 (mBase m)
  | some (a, y) => .done (s.mapHub (fun h => h.setEng e { y with stack := BitVec.ofNat 16 a :: y.stack }))

def execLea (e : Nat) (p : Pfx) (m : MByte) (d : Byte) (s : State) : Host.Outcome State Fault Refusal :=
  s.insn e p { memInsn p m 3 1 0 1 with legal := !m.inc && mCount m == 1 } (fun t => t.pushEa e p m d.toInt)

/-- ADDB: the base advances by s8 under the INC rule, in the mode of a single-word access through it. (log 57: DEDUCED) -/
def State.advanceBase (s : State) (e : Nat) (p : Pfx) (n : Nat) (v : Int) : Eff :=
  let x := s.hub.eng e
  let a := x.mode n p.addr
  if x.brevOk n a then .done (s.mapHub (fun h => h.setEng e (x.advance n v a))) else .trap s 5 n

def execAddb (e : Nat) (p : Pfx) (b : BitVec 3) (v : Byte) (s : State) : Host.Outcome State Fault Refusal :=
  s.insn e p { insn 3 1 0 0 with addrOk := true } (fun t => t.advanceBase e p b.toNat v.toInt)

/-! ### Code RAM (R242) -/

/-- CODEWR: byte b[7:0] at code address hi x 2^16 + lo enters the code-write buffer. -/
def State.codeWrite (s : State) (e : Nat) : Eff :=
  let x := s.hub.eng e
  if x.cbuf.length ≥ 8 then .trap s 7 0
  else
    let a := (popValue true (x.stack.drop 1)).1 % codeSize e
    .done (s.mapHub (fun h => h.setEng e { x with stack := x.stack.drop 3, cbuf := x.cbuf ++ [(a, (x.stack.getD 0 0).setWidth 8)] }))

def execCodewr (e : Nat) (p : Pfx) (s : State) : Host.Outcome State Fault Refusal := s.insn e p (insn 1 1 3 0) (fun t => t.codeWrite e)

/-- FLUSHI: the entries go to code RAM in the order in which they were placed. -/
def State.flushCode (s : State) (e : Nat) : State :=
  let x := s.hub.eng e
  (x.cbuf.foldl (fun t w => t.store (codeAddr e w.1) [w.2]) s).mapHub (fun h => h.setEng e { h.eng e with cbuf := [] })

/-- With an interrupt due the engine leaves it at the end of its second cycle, every entry written (R252). (log 54: DEDUCED) -/
def execFlushi (e : Nat) (p : Pfx) (s : State) : Host.Outcome State Fault Refusal :=
  let i := insn 1 4 0 0
  s.insn e p i (fun t =>
    if t.hub.interruptDue e then .cut (t.flushCode e) 2 (nextPc e p i (t.hub.eng e).pc) else .done (t.flushCode e))

/-! ### The service page (R274) -/

/-- The mode of one of DMAC's words: RING, or BREV through a base whose BRF bit is 1. -/
def Engine.macMode (x : Engine) (n : Nat) : AddrMode := x.mode n .ring

/-- The address of one of DMAC's words fails. -/
def Engine.macBad (x : Engine) (e n : Nat) : Bool := !x.brevOk n (x.macMode n) || !dataOk e (x.ea n 0 (x.macMode n)) 1

/-- DMAC: the product of two words, each through its base, added to ACC. -/
def State.macStep (s : State) (e a b : Nat) : Eff :=
  let x := s.hub.eng e
  if x.macBad e a then .trap s 5 a
  else if x.macBad e b then .trap s 5 b
  else
    let v := (s.dataWord e (x.ea a 0 (x.macMode a))).toInt * (s.dataWord e (x.ea b 0 (x.macMode b))).toInt
    let y := (x.advance a 1 (x.macMode a)).advance b 1 (x.macMode b)
    .done (s.mapHub (fun h => h.setEng e { y with acc := x.acc + BitVec.ofInt 40 v }))

/-- An instruction of the service page: 1 cycle. -/
def service (len pops pushes : Nat) : Insn := { insn len 1 pops pushes with svc := true }

def execDmac (e : Nat) (p : Pfx) (a b : BitVec 3) (s : State) : Host.Outcome State Fault Refusal :=
  s.insn e p { service 2 0 0 with legal := a != b } (fun t => t.macStep e a.toNat b.toNat)

def execClracc (e : Nat) (p : Pfx) (s : State) : Host.Outcome State Fault Refusal := s.pure e p (service 1 0 0) (fun x => { x with acc := 0 })

/-- RDACC: ACC[15:0], ACC[31:16], and ACC[39:32] sign-extended. -/
def execRdacc (e : Nat) (p : Pfx) (s : State) : Host.Outcome State Fault Refusal :=
  s.pure e p (service 1 0 3) (fun x =>
    { x with stack := pushWords [x.acc.setWidth 16, (x.acc >>> 16).setWidth 16, ((x.acc >>> 32).setWidth 8).signExtend 16] x.stack })

/-- RDACCS: ACC limited symmetrically. -/
def execRdaccs (e : Nat) (p : Pfx) (s : State) : Host.Outcome State Fault Refusal :=
  s.pure e p (service 1 0 2) (fun x => { x with stack := pushValue true (wrapTo 32 (limit 32 x.acc.toInt)) x.stack })

/-! ### Block repeat (R275, R276) -/

/-- Words a CPYF has gathered: window word and value (R277). Other string instructions gather none. -/
abbrev Pack := List (Nat × Half)

/-- One element: done, with what is gathered, or a trap with its cause and INFO. -/
inductive Element where
  | ok (s : State) (k : Pack)
  | bad (s : State) (cause info : Nat)

/-- B4 and B5 advanced by 1 in linear mode. -/
def Engine.stepString (x : Engine) : Engine := (x.advance 4 1 .linear).advance 5 1 .linear

/-- RC decremented. (log 55: DEDUCED) -/
def State.countDown (s : State) (e : Nat) : State := s.mapHub (fun h => let x := h.eng e; h.setEng e { x with rc := x.rc - 1 })

/-- n elements under REP: el is told whether its element is the first, and whether it is the last; the elements completed, the machine, what
is gathered, and the trap that ended them, if one did. -/
def State.elements (el : Bool → Bool → Pack → State → Element) (e : Nat) :
    Nat → Nat → Pack → State → Nat × State × Pack × Option (Nat × Nat)
  | 0, count, k, s => (count, s, k, none)
  | n + 1, count, k, s =>
    match el (count == 0) ((s.hub.eng e).rc == 1) k s with
    | .bad t c i => (count, t, k, some (c, i))
    | .ok t k1 => State.elements el e n (count + 1) k1 (t.countDown e)

/-- Elements of a REP that fit in what a budget leaves after its 2 start cycles. -/
def Engine.fitting (x : Engine) (cost : Nat) : Nat :=
  match x.left with
  | none => x.rc.toNat
  | some l => min x.rc.toNat ((l - 2) / cost)

/-- Elements after which an engine leaves a REP: all of them, or with an interrupt due some number of them, none being the end of the start
cycles (R252, R276). (log 54: DEDUCED) -/
def Hub.repStop (h : Hub) (e : Nat) : Nat × Hub :=
  let rc := (h.eng e).rc.toNat
  if h.interruptDue e then let (v, g) := h.fresh
                           (v.toNat % (rc + 1), g)
  else (rc, h)

/-- A REP carried out: its checks, its 2 start cycles, and its elements; flush issues what is gathered when the instruction is left early, for a
budget or an interrupt. (log 55: DEDUCED) -/
def State.repeated (s : State) (e : Nat) (p : Pfx) (i : Insn) (el : Bool → Bool → Pack → State → Element) (flush : Pack → State → State) :
    State :=
  let x := s.hub.eng e
  if e > 72 || !x.st.runs then s
  else if x.broken then s.mapHub (fun h => h.breakIn e)
  else if x.left = some 0 then s.trapTo e 11 0
  else
    match illegal e x p i with
    | some n => s.trapTo e 2 n
    | none =>
      let pass : Bool := x.guard p
      if pass && x.stack.length < i.pops then s.trapTo e 4 (i.pops - x.stack.length)
      else if x.exceeds 2 then s.trapTo e 11 0
      else
        let (stop, h0) := s.hub.repStop e
        let s0 : State := { s with hub := h0 }
        let fit := min (x.fitting i.cost) stop
        let (count, t, k, tr) :=
          if pass then State.elements el e fit 0 [] s0
          else (fit, s0.mapHub (fun h => h.setEng e { x with rc := x.rc - BitVec.ofNat 16 fit }), [], none)
        let cost := 2 + i.cost * count
        match tr with
        | some (c, n) => (t.endInsn e x cost x.pc.toNat).trapTo e c n
        | none =>
          if count < x.rc.toNat then
            let u := (flush k t).endInsn e x cost x.pc.toNat
            if count = stop then u else u.trapTo e 11 0
          else t.endInsn e x cost (nextPc e p i x.pc)

/-- A string instruction, with or without REP. -/
def State.string (s : State) (e : Nat) (p : Pfx) (i : Insn) (el : Bool → Bool → Pack → State → Element) (flush : Pack → State → State) :
    Host.Outcome State Fault Refusal :=
  let j : Insn := { i with repOk := true }
  if p.rep then .next (s.repeated e p j el flush).settle
  else s.insn e p j (fun t =>
    match el true true [] t with
    | .ok u _ => .done u
    | .bad u c n => .trap u c n)

/-- Nothing gathered to issue. -/
def noFlush (_ : Pack) (s : State) : State := s

/-- The element of MOVS: the word at B5 takes the word at B4. -/
def movsElement (e : Nat) (_ _ : Bool) (k : Pack) (s : State) : Element :=
  let x := s.hub.eng e
  if !dataOk e (x.base 4) 1 then .bad s 5 4
  else if !dataOk e (x.base 5) 1 then .bad s 5 5
  else .ok (State.pushStore (s.mapHub (fun h => h.setEng e x.stepString)) e (x.base 5) [s.dataWord e (x.base 4)]) k

def execMovs (e : Nat) (p : Pfx) (s : State) : Host.Outcome State Fault Refusal := s.string e p (insn 1 2 0 0) (movsElement e) noFlush

/-- The element of FILLS: the word at B5 takes the top of the stack. -/
def fillsElement (e : Nat) (_ _ : Bool) (k : Pack) (s : State) : Element :=
  let x := s.hub.eng e
  if !dataOk e (x.base 5) 1 then .bad s 5 5
  else .ok (State.pushStore (s.mapHub (fun h => h.setEng e x.stepString)) e (x.base 5) [x.stack.getD 0 0]) k

def execFills (e : Nat) (p : Pfx) (s : State) : Host.Outcome State Fault Refusal := s.string e p (insn 1 2 1 1) (fillsElement e) noFlush

/-- The element of CMPS: Pd stays 1 while the words at B4 and B5 are equal. -/
def cmpsElement (e d : Nat) (_ _ : Bool) (k : Pack) (s : State) : Element :=
  let x := s.hub.eng e
  if !dataOk e (x.base 4) 1 then .bad s 5 4
  else if !dataOk e (x.base 5) 1 then .bad s 5 5
  else
    let same := s.dataWord e (x.base 4) == s.dataWord e (x.base 5)
    .ok (s.mapHub (fun h => h.setEng e (x.stepString.setP d (x.p d && same)))) k

def execCmps (e : Nat) (p : Pfx) (pd : BitVec 3) (s : State) : Host.Outcome State Fault Refusal :=
  s.string e p (insn 2 2 0 0) (cmpsElement e pd.toNat) noFlush

end Sys2Proof.Machine
end

