-- ==== Sys2Proof/Machine/Layout.lean ====
section
/-! DEFINITION. The Layout Table (R35 to R49): its contents as the fabric reads them, the write it discards, and the swap. The contents
are computed from the facts the active copy holds, so a read is of one generation (R37). -/

namespace Sys2Proof.Machine

/-- LT_BLK_ERR (R36). -/
def ltErr : ErrReg := ⟨0x10050, 3, 0, 0⟩

/-- A row of the shipped entries (R44): type, base, stride, instances, physical units, capabilities and map. -/
structure LayoutRow where
  ty     : Nat
  base   : Nat
  stride : Nat
  inst   : Nat
  phys   : Nat
  caps   : Nat
  map    : Nat
deriving DecidableEq, Repr

/-- The 24 entries (R44). -/
def layoutRows : List LayoutRow :=
  [⟨0x01, 0x10000, 0, 1, 1, 0, 0⟩, ⟨0x02, 0x20000, 0, 1, 1, 0, 0⟩, ⟨0x03, 0x30000, 0, 1, 1, 0x00FF0408, 0⟩,
   ⟨0x04, 0x38000, 0x10, 1024, 1024, 0, 0⟩, ⟨0x10, 0x40000, 0x400, 52, 52, 0x14, 0x800⟩,
   ⟨0x11, 0x50000, 0x200, 68, 68, 0x01, 0x810⟩, ⟨0x12, 0x60000, 0x100, 34, 34, 0x07, 0x830⟩,
   ⟨0x13, 0x68000, 0x40, 48, 48, 0x2F, 0⟩] ++
  [⟨0x14, 0x70000, 0x80, 128, 128, 0x3F10, 0⟩, ⟨0x20, 0x80040, 0x40, 255, 255, 0, 0⟩,
   ⟨0x21, 0x90000, 0x20, 128, 128, 0, 0⟩, ⟨0x22, 0x98000, 0x20, 64, 64, 0, 0⟩,
   ⟨0x30, 0xA0000, 0x1000, 16, 16, 0x03, 0⟩, ⟨0x31, 0xB0000, 0x1000, 8, 8, 0x07, 0⟩,
   ⟨0x32, 0xC0000, 0, 1, 1, 0, 0⟩, ⟨0x33, 0xF0000, 0x8000, 2, 2, 0x03, 0⟩] ++
  [⟨0x40, 0xD0000, 0x100, 32, 32, 0, 0⟩, ⟨0x41, 0xE0000, 0x40, 128, 128, 0, 0⟩,
   ⟨0x42, 0x1000000, 0x100000, 16, 16, 0xFFFF, 0x860⟩, ⟨0x50, 0x120000, 0x100, 72, 72, 0x4000000, 0x840⟩,
   ⟨0x51, 0xFFFFFFFF, 0, 1, 2, 0, 0⟩, ⟨0x52, 0x200000, 0, 1, 1, 0, 0⟩, ⟨0x60, 0x100000, 0, 1, 1, 0, 0⟩,
   ⟨0x61, 0x110000, 0, 1, 1, 0, 0⟩]

/-- State of a physical unit as the facts have it (R41, R45). -/
def LayoutFacts.unit (f : LayoutFacts) (ty p : Nat) : Nat :=
  if p < physicalCount ty then (tval (if p < logicalCount ty then 1 else 2) f.units (ty * 256 + p)).toNat else 0

/-- Spare rows and columns left in a batch SRAM bank (R42, R45). -/
def LayoutFacts.spareRows (f : LayoutFacts) (b : Nat) : Nat := 28 + (Config.factoryRows b).val - (f.rows.filter (fun r => r.1 == b)).length
def LayoutFacts.spareCols (f : LayoutFacts) (b : Nat) : Nat := 4 - (f.cols.filter (fun r => r.1 == b)).length

/-- The map word of a bank (R42). -/
def LayoutFacts.bankWord (f : LayoutFacts) (b : Nat) : Nat :=
  f.spareRows b + f.spareCols b * 64 + (f.out.getLsbD b).toNat * 0x8000

/-- HEALTHY and SPARES of an entry (R40). -/
def LayoutFacts.healthy (f : LayoutFacts) (r : LayoutRow) : Nat :=
  if r.ty = 0x42 then ((List.range 16).filter (fun b => !f.out.getLsbD b)).length
  else if r.ty = 0x51 then 1
  else if r.map = 0 then r.phys
  else ((List.range r.phys).filter (fun p => f.unit r.ty p == 1 || f.unit r.ty p == 2)).length
def LayoutFacts.spares (f : LayoutFacts) (r : LayoutRow) : Nat :=
  if r.ty = 0x42 then (List.range 16).foldl (fun n b => n + f.spareRows b) 0
  else if r.map = 0 then 0
  else ((List.range r.phys).filter (fun p => f.unit r.ty p == 2)).length

/-- The ENG clock of a planner step in MHz (R305). -/
def engMhz (step : Nat) : Nat := 600 - 50 * step

/-- Word k of an entry (R40, R43). -/
def LayoutFacts.entryWord (f : LayoutFacts) (r : LayoutRow) (k : Nat) : Nat :=
  match k with
  | 0 => r.ty + 0x01000000
  | 1 => r.base
  | 2 => r.stride
  | 3 => r.inst + r.phys * 65536
  | 4 => f.healthy r + f.spares r * 65536
  | 5 => r.caps + (if r.ty = 0x50 then f.stealing.toNat else 0)
  | 6 => (if r.ty = 0x50 ∨ r.ty = 0x51 then engMhz f.step else 0) + r.map * 65536
  | _ => 0

/-- Word k of a unit-state map (R41). -/
def LayoutFacts.mapWord (f : LayoutFacts) (ty k : Nat) : Nat :=
  (List.range 16).foldl (fun n i => n + f.unit ty (16 * k + i) * 4 ^ i) 0

/-- The word at an offset, with zero in place of the CRC (R37 to R45). -/
def LayoutFacts.word (f : LayoutFacts) (gen ts : Word) (o : Nat) : Nat :=
  if o < 0x20 then
    match o / 4 with
    | 0 => 0x48564454
    | 1 => 0x00180100
    | 2 => gen.toNat
    | 4 => 0x08002020
    | 5 => ts.toNat
    | 6 => 0xA1
    | _ => 0
  else if o < 0x320 then ((layoutRows[(o - 0x20) / 32]?).map (fun r => f.entryWord r (o % 32 / 4))).getD 0
  else if o < 0x800 then 0
  else if o < 0x810 then f.mapWord 0x10 ((o - 0x800) / 4)
  else if o < 0x824 then f.mapWord 0x11 ((o - 0x810) / 4)
  else if o < 0x830 then 0
  else if o < 0x83C then f.mapWord 0x12 ((o - 0x830) / 4)
  else if o < 0x840 then 0
  else if o < 0x854 then f.mapWord 0x50 ((o - 0x840) / 4)
  else if o < 0x860 then 0
  else if o < 0x880 then f.bankWord ((o - 0x860) / 2) + f.bankWord ((o - 0x860) / 2 + 1) * 65536
  else 0

/-- The table's CRC (R39). -/
def LayoutFacts.crc (f : LayoutFacts) (gen ts : Word) : Word :=
  crc32 ((List.range 1024).flatMap (fun i => bytesOf 4 (f.word gen ts (4 * i))))

/-- The word the fabric reads at an offset: zero until the table is built (R35). -/
def Hub.layoutWord (h : Hub) (o : Nat) : Word :=
  let l := h.lay
  if l.gen = 0 then 0 else if o = 0x0C then l.facts.crc l.gen l.ts else BitVec.ofNat 32 (l.facts.word l.gen l.ts (o / 4 * 4))

/-- What holds of the hub now (R46). -/
def Hub.layoutNow (h : Hub) : LayoutFacts :=
  { units := h.units, rows := h.sramRows, cols := h.sramCols, out := h.bankOut, step := h.age.step, stealing := h.rp.stealing }

/-- One of the events of R46 has happened. -/
def Hub.layoutChange (h : Hub) : Hub := { h with lay := { h.lay with changed := true } }

/-- An epoch has ended in which something changed: its changes go to the swap of the next epoch, if Mbonik runs (R47). (log 88: DEDUCED) -/
def Hub.layoutGather (h : Hub) : Hub :=
  if h.lay.changed && h.mbonik && h.lay.gen != 0 then
    { h with lay := { h.lay with changed := false, next := some h.layoutNow } }
  else h

/-- LAYOUT_TABLE_SWAP (R37, R38, R47). -/
def Hub.layoutSwap (h : Hub) : Hub :=
  match h.lay.next with
  | none => h
  | some f =>
    if !h.mbonik then h else
    let g : Word := if h.lay.gen = 0xFFFFFFFF then 1 else h.lay.gen + 1
    ({ h with lay := { h.lay with gen := g, ts := h.ts, facts := f, next := none } }).sysRecord 0x18 0 (g.setWidth 40)

def execLayoutTableSwap (s : State) : Host.Outcome State Fault Refusal := s.run Hub.layoutSwap

/-- Mbonik runs again: changes gathered before it stopped and made since go to one swap (R47). -/
def Hub.layoutResume (h : Hub) : Hub :=
  if h.lay.next.isSome then { h with lay := { h.lay with changed := false, next := some h.layoutNow } } else h

/-- The first build, at boot: generation 1, with no TABLE_GEN record (R38, R48). (log 121: DESIGN CHOICE) -/
def Hub.layoutBuild (h : Hub) : Hub :=
  { h with lay := { gen := 1, ts := h.ts, facts := h.layoutNow, changed := false, next := none } }

/-- LAYOUT_TABLE_WRITE: discarded (R36). -/
def execLayoutTableWrite (_by : Initiator) (addr : Nat) (_val : Word) (s : State) : Host.Outcome State Fault Refusal :=
  s.run (fun h => if addr < 0x1000 then h.flag ltErr 2 0 else h)

end Sys2Proof.Machine
end

