-- ==== Sys2Proof/Machine/Repair.lean ====
section
/-! DEFINITION. Self-repair (R278 to R297): retirement and replacement of units, the rotating shadow with its holds and votes, the
field-repair area, and the choice between STATIC and STEALING. The model's units compute alike, so a difference arrives as a command,
and what a hold keeps is what either unit would form. -/

namespace Sys2Proof.Machine

/-- RP_ERR (R297). -/
def rpErr : ErrReg := ⟨0x10007C, 3, 0, 0⟩

/-- The Layout Table type code of kind k (R278), and the kind of a type. -/
def kindType (k : Nat) : Nat := if k = 3 then 0x50 else 0x10 + k
def kindOfType (ty : Nat) : Nat := if ty = 0x50 then 3 else ty - 0x10

/-- A physical unit's state set (R41). -/
def Hub.setUnit (h : Hub) (ty p st : Nat) : Hub :=
  ({ h with units := tset (if p < logicalCount ty then 1 else 2) h.units (ty * 256 + p) (BitVec.ofNat 2 st) }).layoutChange

/-- The logical unit a physical one serves, if it serves one. -/
def Hub.logicalOf (h : Hub) (ty p : Nat) : Option Nat := (List.range (logicalCount ty)).find? (fun n => h.physOf ty n == p)

/-- Units of a kind in state SPARE, ascending. -/
def Hub.spareUnits (h : Hub) (ty : Nat) : List Nat := (List.range (physicalCount ty)).filter (fun p => h.unitState ty p == 2)

/-! ### The field-repair area (R280, R281) -/

/-- A field-repair entry. -/
def otpEntry (op ty inst addr : Nat) : BitVec 64 :=
  let low := op % 16 + ty % 4096 * 2 ^ 4 + inst % 65536 * 2 ^ 16 + addr % 65536 * 2 ^ 32
  BitVec.ofNat 64 (low + (crc8 (bytesOf 6 low)).toNat * 2 ^ 48)

/-- An entry that Mbonik has to write. -/
def Hub.otpDue (h : Hub) (e : BitVec 64) : Hub := { h with rp := { h.rp with due := h.rp.due ++ [e] } }

/-- FIELD_REPAIR_WRITE: the oldest entry due is written in RUN or MEADOW, or made VOID when it does not read back, or finds the area
full (R281). -/
def Hub.fieldRepair (h : Hub) (readsBack : Bool) : Hub :=
  match h.rp.due with
  | [] => h
  | e :: rest =>
    if !h.mbonik || h.pwr.state > 1 then h
    else if h.rp.otp.length ≥ 64 then
      ({ h with rp := { h.rp with due := rest, late := true } }).health 0x60 0 0x84 h.rp.otp.length
    else if readsBack then { h with rp := { h.rp with due := rest, otp := h.rp.otp ++ [e] } }
    else ({ h with rp := { h.rp with otp := h.rp.otp ++ [e ||| 0xF] } }).flag rpErr 2 0

def execFieldRepairWrite (readsBack : Bool) (s : State) : Host.Outcome State Fault Refusal := s.run (fun h => h.fieldRepair readsBack)

/-! ### Release of a hold, and the end of a dwell (R282, R287, R289) -/

/-- The lattice points of context n that a released output lets be formed. -/
def Hub.leftPoints : Nat → Nat → Nat → Hub → Hub
  | 0, _, _, h => h
  | k + 1, sid, n, h =>
    match h.pointOf sid n with
    | .wait => h
    | pt => Hub.leftPoints k sid n (h.formPoint sid n true pt)

/-- Held output o of slice n goes on. That of a stream which forms records no more was formed before, and goes through its resampler, if it has
one, to the stamp unit at once (R287, R289). (log 60: DEDUCED) -/
def Hub.releaseOut (bank n : Nat) (h : Hub) (o : HeldOut) : Hub :=
  match h.sliceOwner bank n with
  | none => h
  | some sid =>
    if !h.left sid then h.pass_ bank n o.t o.v o.per o.gap o.cut
    else
      let h1 := if h.rsmpEn sid then Hub.leftPoints 1024 sid (h.rsmp sid) (h.rsTake sid o.t o.v o.per o.gap o.cut true)
        else h.takeSample sid (sliceSample o.t o.v o.per o.gap o.cut)
      h1.feedDerived sid o.t o.v o.per o.gap o.cut

/-- A held grid point or pass sample goes on. -/
def Hub.releasePoint (h : Hub) (o : Nat × Option Sample) : Hub :=
  match o.2 with
  | none => (h.formRecord o.1).lose o.1
  | some smp => if h.forms o.1 || h.left o.1 then h.takeSample o.1 smp else h

/-- What a release leaves in the open record of a stream that forms records no more: WAITING closes it early, DRAINING discards it; and its resampler
then begins anew (R66, R289). (log 60: DEDUCED) -/
def Hub.closeHold (h : Hub) (owner : Option Nat) : Hub :=
  match owner with
  | none => h
  | some sid =>
    if h.onHold sid then h else
    match (h.strm sid).state with
    | .draining => (h.setStrm sid { h.strm sid with slots := [], gap := false }).primeRest sid true
    | .waiting => (h.formRecord sid).primeRest sid true
    | _ => h

/-- The results of task runs that a hold keeps go on. (log 60: DEDUCED) -/
def Hub.releaseRuns (h : Hub) : Hub :=
  h.flight.foldl (fun g f => match f.stage with
    | .held u => g.runResult { sid := f.sid, seq := f.seq, rerun := false } u
    | _ => g) h

/-- What the hold of kind k keeps goes on, in order (R287). (log 60: DEDUCED) -/
def Hub.releaseHold (h : Hub) (k : Nat) : Hub :=
  let x := h.shd k
  let h1 := h.setShd k { x with phase := 2, outs := [], smps := [] }
  match x.live, k with
  | none, _ => h1
  | some _, 3 => h1.releaseRuns
  | some n, 2 => (x.smps.foldl Hub.releasePoint h1).closeHold (h1.rsmpOwner n)
  | some n, _ => (x.outs.foldl (Hub.releaseOut (k + 1) n) h1).closeHold (h1.sliceOwner (k + 1) n)

/-- No dwell: the units of this one are remembered for the rotation (R282). -/
def Hub.dropDwell (h : Hub) (k : Nat) : Hub :=
  let x := h.shd k
  h.setShd k { Shadow.init with prevLive := x.live.orElse (fun _ => x.prevLive), prevSpare := x.spare.orElse (fun _ => x.prevSpare) }

/-- The RAM of engine a copied to engine b, with its task slots and its buffers (R284). -/
def State.copyRam (s : State) (a b : Nat) : State :=
  let lo := windowBase + 0x10000 * a
  let cells := s.mem.filter (fun c => decide (lo ≤ c.1 ∧ c.1 < lo + 0x10000))
  let clear := s.mem.filter (fun c => !decide (windowBase + 0x10000 * b ≤ c.1 ∧ c.1 < windowBase + 0x10000 * b + 0x10000))
  let s1 : State := { s with mem := cells.foldl (fun m c => memPut m (c.1 - lo + windowBase + 0x10000 * b) c.2) clear }
  s1.mapHub (fun h =>
    let h1 := (List.range 16).foldl (fun g i => g.setReg (engReg b (0x80 + 4 * i)) (g.reg (engReg a (0x80 + 4 * i)))) h
    h1.setEng b { h1.eng b with sbuf := (h1.eng a).sbuf, cbuf := (h1.eng a).cbuf })

/-- The shadow of an engine pair is left with the registers it has followed (R284). -/
def Hub.leavePair (h : Hub) (w : Nat) : Hub :=
  match h.pair, (h.shd 3).joined with
  | some (_, v), some _ =>
    if v = w then h.setEng w { h.engView w with st := (h.eng w).st, again := (h.eng w).again, run := none, res := none } else h
  | _, _ => h

/-- A dwell ends; an engine shadow is left with what it has followed (R284). -/
def State.endDwell (s : State) (k : Nat) : State :=
  let x := s.hub.shd k
  let s1 := match k, x.live, x.spare with
    | 3, some n, some sp => if x.phase ≥ 2 then (s.copyRam (s.hub.physOf 0x50 n) sp).mapHub (fun h => h.leavePair sp) else s
    | _, _, _ => s
  s1.mapHub (fun h => h.dropDwell k)

/-! ### Retirement (R287, R290) -/

/-- The unit is RETIRED, with what records it: its state, RETIRE in the field-repair area, and the RETIRE record (R62, R281). -/
def Hub.markRetired (h : Hub) (ty p repl : Nat) : Hub :=
  ((h.setUnit ty p 3).otpDue (otpEntry 3 ty p 0)).sysRecord 0x1A ty (BitVec.ofNat 40 (p + repl * 65536))

/-- A stream whose slice or context has no unit behind it goes to FAULT with CAUSE 11: the record not yet closed met the fault, and is discarded and
counted; an ARMED stream forms none (R66, R290). (log 132: DEDUCED) -/
def Hub.unitFault (h : Hub) (sid : Nat) : Hub :=
  let x := h.strm sid
  if x.state = .armed ∨ x.state = .running ∨ x.state = .waiting then
    let h1 := if x.state != .armed && !x.slots.isEmpty then h.missing sid 1 else h
    ((h1.setStrm sid { x with slots := [], pos := none, grid := 0, lat := none, closing := 0 }).toState sid .fault (some 11)).chainNow sid
  else h

/-- Streams that a logical slice or context serves. -/
def Hub.servedBy (h : Hub) (ty n : Nat) : List Nat :=
  match ty with
  | 0x10 => (h.sliceOwner 1 n).toList
  | 0x11 => (h.sliceOwner 2 n).toList
  | 0x12 => (h.rsmpOwner n).toList
  | _ => []

/-- Outputs of a stream's source are absent: the resamplers that take them have a hole, and what they pass next carries GAP (R141, R142). -/
def Hub.sourceHole (h : Hub) (sid : Nat) : Hub :=
  let takers := (if h.rsmpEn sid then [sid] else []) ++ h.liveSids.filter (fun d => h.kind d == 6 && h.srcIndex d == sid)
  takers.foldl (fun g d => g.setRsl (g.rsmp d) { g.rsl (g.rsmp d) with hole := true, gap := true }) h

/-- A unit takes a logical slice's or context's place without its history: it primes, and the next record of every stream that takes its outputs
carries GAP (R141, R290). -/
def Hub.primeUnit (h : Hub) (ty n : Nat) : Hub :=
  if ty = 0x12 then
    let h1 := h.setRsl n { h.rsl n with hist := [], hole := true }
    (h1.servedBy ty n).foldl Hub.gapNext h1
  else
    let bank := ty - 0xF
    let h1 := if bank = 1 then h.primeH n else h.primeM n
    (h1.sliceStreams bank n).foldl Hub.gapNext ((h1.servedBy ty n).foldl Hub.sourceHole h1)

/-- A physical unit comes to serve a logical one. -/
def Hub.serve (h : Hub) (ty n p : Nat) : Hub := { h.setUnit ty p 1 with behind := tset n h.behind (ty * 256 + n) p }

/-- An engine that is RETIRED: its queue, its runs and its homes are given up; its records are dispatched anew, the one in flight as a
re-run. In STEALING its streams have no home until the next epoch (R18, R290, R295). (log 62: DEDUCED) -/
def Hub.engOut (h : Hub) (e : Nat) : Hub :=
  let x := h.eng e
  let mine := h.liveSids.filter (fun sid => (h.strm sid).home == some e)
  let h1 := { h with rp := { h.rp with homeless := if h.rp.stealing then h.rp.homeless ++ mine else h.rp.homeless }, flight := x.entries_.foldl (fun (l : List Flight) (d : DispatchEntry) => markFlight d.sid d.seq (fun f => { f with stage := .toTask d.rerun }) l) h.flight }
  let h2 := mine.foldl (fun (g : Hub) sid => g.setStrm sid { g.strm sid with home := none }) h1
  h2.setEng e { x with st := .retired, queue := [], again := [], run := none, res := none }

/-- Engine w takes the place of engine e: state, RAM, requests, homes and waiting entries pass to it (R284, R287). -/
def State.engPass (s : State) (e w : Nat) : State :=
  (s.copyRam e w).mapHub (fun h =>
    let x := h.eng e
    let h1 := h.setEng w { x with cycles := (h.engView w).cycles, mark := (h.eng w).mark, work := (h.eng w).work, again := x.again ++ (h.eng w).again }
    let h2 := h1.liveSids.foldl (fun g sid =>
      let y := g.strm sid
      g.setStrm sid { y with home := if y.home = some e then some w else y.home, lastEng := if y.lastEng = some e then some w else y.lastEng }) h1
    let h3 := { h2 with outq := h2.outq.map (fun (q : Nat × EngReq) => if q.1 = e then (w, q.2) else q) }
    (((h3.setBit (engReg w 0) 0 (h3.bit (engReg e 0) 0)).setBit (engReg w 0) 1 (h3.bit (engReg e 0) 1)).setBit (engReg w 0) 3
      (h3.bit (engReg e 0) 3)).setEng e { x with st := .retired, queue := [], again := [], run := none, res := none })

/-- A batch SRAM bank goes out of service (R234). -/
def Hub.bankRetire (h : Hub) (b : Nat) : Hub :=
  if h.bankOut.getLsbD b then h else
  let h1 := ({ h with bankOut := h.bankOut ||| BitVec.ofNat 16 (2 ^ b) }).layoutChange
  let h2 := (h1.otpDue (otpEntry 3 0x42 b 0)).sysRecord 0x1A 0x42 (BitVec.ofNat 40 (b + 0xFFFF * 65536))
  ((List.range 128).filter (fun n => h2.ringOn n && (banksOf (h2.ringUnits n).1 (h2.ringUnits n).2).contains b)).foldl
    (fun g n => (g.ringOff n).health 0x41 n 0x84 b) h2

/-- The live unit behind logical n gives way to its shadow, which carries its work on (R287). (log 62: DEDUCED) -/
def State.handOver (s : State) (k n p w : Nat) : State :=
  let ty := kindType k
  let s1 := if k = 3 then s.engPass p w else s
  s1.mapHub (fun h => (((h.serve ty n w).markRetired ty p w).releaseHold k).dropDwell k)

/-- A physical unit is retired without a vote (R290); with the unit that replaces it, or 0xFFFF. A unit that is RETIRED stays so. -/
def State.retireUnit (s : State) (ty p : Nat) : State × Nat :=
  if ty = 0x42 then (if p < 16 then s.mapHub (fun h => h.bankRetire p) else s, 0xFFFF) else
  let k := kindOfType ty
  if p ≥ physicalCount ty ∨ s.hub.unitState ty p = 3 then (s, 0xFFFF) else
  let x := s.hub.shd k
  match s.hub.logicalOf ty p, s.hub.unitState ty p with
  | some n, 1 =>
    if x.live = some n ∧ x.phase ≥ 2 ∧ x.spare.isSome then
      let w := x.spare.getD 0
      (s.handOver k n p w, w)
    else
      let s1 := if x.live = some n then s.endDwell k else s
      let s2 := if k = 3 then s1.mapHub (fun h => h.engOut p) else s1
      match s2.hub.spareUnits ty with
      | [] =>
        (s2.mapHub (fun h => let h1 := h.markRetired ty p 0xFFFF
                             (h1.servedBy ty n).foldl Hub.unitFault h1), 0xFFFF)
      | w :: _ =>
        let shadow := (s2.hub.shd k).spare = some w
        let s3 := if shadow then (s2.mapHub (fun h => if (h.shd k).phase = 3 then h.releaseHold k else h)).endDwell k else s2
        (s3.mapHub (fun h => let h1 := (h.serve ty n w).markRetired ty p w
                             if k = 3 then h1 else h1.primeUnit ty n), w)
  | _, _ =>
    let s1 := if x.spare = some p then
        (s.mapHub (fun h => if (h.shd k).phase = 3 then h.releaseHold k else h)).mapHub (fun h => h.dropDwell k)
      else s
    let s2 := if k = 3 then s1.mapHub (fun h => h.setEng p { h.eng p with st := .retired, run := none, again := [], res := none }) else s1
    (s2.mapHub (fun h => h.markRetired ty p 0xFFFF), 0xFFFF)

/-- A retired engine has passed its self-test: it returns at the next epoch, and RESTORE goes to OTP (R291). (log 63: DEDUCED) -/
def Hub.engPassed (h : Hub) (e : Nat) : Hub :=
  if e < 72 ∧ h.unitState 0x50 e = 3 ∧ !h.rp.returning.contains e then { h with rp := { h.rp with returning := h.rp.returning ++ [e] } }
  else h

/-- Spare engines take the place of logical engines that have none behind them; then the engines that return become SPARE (R291, R295). (log 63: DEDUCED) -/
def Hub.engReturn (h : Hub) : Hub :=
  let h1 := ((List.range 64).filter (fun n => h.unitState 0x50 (h.physOf 0x50 n) == 3)).foldl (fun g n =>
    match (g.spareUnits 0x50).filter (fun p => (g.shd 3).spare != some p) with
    | [] => g
    | p :: _ => g.serve 0x50 n p) h
  let h2 := h1.rp.returning.foldl (fun g e =>
    ((g.setUnit 0x50 e 2).otpDue (otpEntry 4 0x50 e 0)).setEng e { g.eng e with st := .reset }) h1
  { h2 with rp := { h2.rp with returning := [] } }

/-- Streams whose home was retired in STEALING are given a new one at the epoch (R295). -/
def Hub.rehome (h : Hub) : Hub :=
  h.rp.homeless.foldl (fun g sid => if (g.strm sid).state = .idle then g else (g.homeOf sid).2) { h with rp := { h.rp with homeless := [] } }

/-! ### Dwells (R282 to R284) -/

/-- The next element of an ascending list after one, going round. -/
def nextAfter (prev : Option Nat) (l : List Nat) : Option Nat :=
  match prev with
  | none => l.head?
  | some p => (l.find? (fun n => decide (p < n))).orElse (fun _ => l.head?)

/-- A live unit of kind k is active: claimed by a stream that has not been stopped, or an engine with a VALID slot that is home to a stream
(R282, R289). -/
def Hub.activeUnit (h : Hub) (k n : Nat) : Bool :=
  let going (sid : Nat) : Bool := (h.strm sid).state != .draining
  h.unitOk (kindType k) n && (match k with
    | 0 => (h.sliceOwner 1 n).any going
    | 1 => (h.sliceOwner 2 n).any going
    | 2 => (h.rsmpOwner n).any going
    | _ =>
      let e := h.physOf 0x50 n
      (List.range 16).any (fun i => h.bit (engReg e (0x80 + 4 * i)) 15) && h.liveSids.any (fun sid => (h.strm sid).home == some e))

/-- The units of the next dwell of kind k, if one can start. -/
def Hub.dwellUnits (h : Hub) (k : Nat) : Option (Nat × Nat) :=
  let x := h.shd k
  if x.phase ≠ 0 ∨ !h.bit 0x100000 0 ∨ !h.mbonik ∨ h.pwr.state > 1 then none else
  match nextAfter x.prevLive ((List.range (logicalCount (kindType k))).filter (fun n => h.activeUnit k n)),
        nextAfter x.prevSpare (h.spareUnits (kindType k)) with
  | some n, some p => some (n, p)
  | _, _ => none

/-- DWELL_START (R282). An engine's copy begins at its first IDLE moment (R284). -/
def Hub.dwellStart (h : Hub) (k : Nat) : Hub :=
  match h.dwellUnits k with
  | none => h
  | some (n, p) =>
    let idle := k == 3 && (h.eng (h.physOf 0x50 n)).st == .idle
    h.setShd k { Shadow.init with live := some n, spare := some p, phase := 1, warmed := idle.toNat, since := h.now }

def execDwellStart (k : Nat) (s : State) : Host.Outcome State Fault Refusal := s.run (fun h => if k < 4 then h.dwellStart k else h)

/-- The dwell of kind k is over: 1 000 epochs and 16 comparisons have passed, or its live unit is no longer active (R282). (log 66: DEDUCED) -/
def Hub.dwellOver (h : Hub) (k : Nat) : Bool :=
  let x := h.shd k
  match x.live with
  | none => false
  | some n => (x.phase == 1 || x.phase == 2) && (decide (1000 ≤ x.elapsed ∧ 16 ≤ x.compared) || !h.activeUnit k n)

/-- DWELL_END. -/
def execDwellEnd (k : Nat) (s : State) : Host.Outcome State Fault Refusal :=
  .next (if k < 4 && s.hub.dwellOver k then s.endDwell k else s).settle

/-- SHADOW_COPY_DONE: the copy of R284 is complete, and the engines start their next run together. -/
def State.copyDone (s : State) : State :=
  let x := s.hub.shd 3
  match x.live, x.spare, x.phase with
  | some n, some p, 1 => (s.copyRam (s.hub.physOf 0x50 n) p).mapHub (fun h => h.setShd 3 { x with phase := 2 })
  | _, _, _ => s

def execShadowCopyDone (s : State) : Host.Outcome State Fault Refusal := .next s.copyDone.settle

/-! ### Mismatches and votes (R285, R286) -/

/-- Fields of RP_COUNTSk and RP_LASTMIS. -/
def Hub.rpCount (h : Hub) (k lsb width : Nat) : Hub := h.bump (0x100020 + 4 * k) lsb width 1
def Hub.misOutcome (h : Hub) (v : Nat) : Hub := h.setFld 0x100030 16 4 v

/-- The witness of a mismatch at a stage of a slice or context: the input history of that stage, at most 4096 bits or 512 words (R285). -/
def Hub.witnessOf (h : Hub) (k n stage : Nat) : Witness :=
  match k with
  | 0 =>
    let x := h.hsl n
    match stage with
    | 2 => { vals := x.hb1.take 512 }
    | 3 => { vals := x.hb2.take 512 }
    | 4 => { vals := x.fir.take 512 }
    | 5 => { vals := x.farrow.take 512 }
    | 1 => { bits := x.cic.take 4096 }
    | _ => { bits := x.line.take 4096 }
  | 1 =>
    let x := h.msl n
    match stage with
    | 2 => { vals := x.st1.take 512 }
    | 3 => { vals := x.st2.take 512 }
    | _ => { vals := (x.ins.take 512).map (fun i => i.v) }
  | 2 => { vals := ((h.rsl n).hist.take 512).map (fun i => i.v) }
  | _ => (h.shd 3).wit

/-- A mismatch freezes the witness and starts a hold. -/
def Hub.mismatch (h : Hub) (k stage : Nat) : Hub :=
  let x := h.shd k
  match x.live with
  | none => h
  | some n =>
    if x.phase ≠ 2 then h else
    ((h.setShd k { x with phase := 3, outs := [], smps := [], since := h.now, wit := h.witnessOf k n stage }).setReg 0x100030
      (BitVec.ofNat 32 (k + n * 2 ^ 4 + stage * 2 ^ 12))).rpCount k 0 8

/-- The engine that runs the third opinion on a run of engine p, shadowed by w: a second spare, or the live engine with the fewest dispatch entries
(R286). (log 138: DESIGN CHOICE) -/
def Hub.thirdEngine (h : Hub) (p w : Nat) : Option Nat :=
  match (h.spareUnits 0x50).filter (fun t => t != w) with
  | t :: _ => some t
  | [] =>
    let l := h.openEngines.filter (fun t => t != p)
    let load (t : Nat) : Nat := ((h.eng t).again ++ (h.eng t).queue).length
    l.head?.map (fun a => l.foldl (fun m t => if load t < load m then t else m) a)

/-- The disputed run is run a third time, on a spare at once, on a live engine as its next run (R286). -/
def State.thirdOpinion (s : State) : State :=
  let h := s.hub
  match h.pair with
  | none => s
  | some (p, w) =>
    match (h.eng p).run, h.thirdEngine p w with
    | some r, some t =>
      let d : DispatchEntry := { r.entry with rerun := true, third := true }
      let s1 := s.mapHub (fun g => g.setPair (fun x => { x with third := some { eng := t } }))
      if h.unitState 0x50 t = 2 then s1.startThird t d
      else s1.mapHub (fun g => g.setEng t { g.eng t with again := d :: (g.eng t).again })
    | _, _ => s

/-- Whether the third opinion's outcome is that of engine p's run: the same result record and the same last value written to each address, or the
result alone where a log overflowed; none while one of the two has not ended (R286). -/
def Hub.thirdAgrees (h : Hub) (p : Nat) : Option Bool :=
  let x := h.shd 3
  let held := h.flight.find? (fun f => match f.stage with
    | .held _ => true
    | _ => false)
  match x.third, held with
  | some t, some f =>
    t.result.map (fun r =>
      let log := x.wit.log ++ (h.outq.filter (fun q => q.1 == p)).flatMap (fun q => q.2.written)
      decide (f.stage = .held r.1) && (r.1 != 0 || r.2 == f.rcd)
        && (x.wit.full || t.full || decide (256 < log.length) || sameWrites log t.log))
  | _, _ => none

/-- The outcome of an engine vote: the third run decides what it agrees with, as far as it has ended; the shadow's side comes with the command (R286). (log 59: DESIGN CHOICE) -/
def Hub.engOpinion (h : Hub) (p : Nat) (op : Opinion) : Opinion :=
  match h.thirdAgrees p with
  | some true => .live
  | some false => if op = .live then .neither else op
  | none => op

/-- The disputed run of a hold: its record is re-run on the live engine, what it had written and handed on being dropped (R286). -/
def Hub.rerunHeld (h : Hub) (e : Nat) : Hub :=
  let held := h.flight.filter (fun f => match f.stage with
    | .held _ => true
    | _ => false)
  let back := held.map (fun f => ({ sid := f.sid, seq := f.seq, rerun := true } : DispatchEntry))
  let x := (h.eng e).abandon
  { h.setEng e { x with again := back ++ x.again, st := if (h.eng e).run.isSome then .idle else x.st } with
    outq := h.outq.filter (fun q => q.1 != e),
    flight := h.flight.map (fun f => match f.stage with
      | .held _ => { f with stage := .inTask }
      | _ => f) }

/-- VOTE: Mbonik's third opinion decides a hold (R286, R287). (log 61: DEDUCED) -/
def State.vote (s : State) (k : Nat) (op : Opinion) : State :=
  let x := s.hub.shd k
  let ty := kindType k
  match x.live, x.spare with
  | some n, some w =>
    if x.phase ≠ 3 ∨ !s.hub.mbonik then s else
    let p := s.hub.physOf ty n
    match (if k = 3 then s.hub.engOpinion p op else op) with
    | .live =>
      let s1 := s.mapHub (fun h => ((h.misOutcome 1).rpCount k 16 8).releaseHold k)
      (s1.retireUnit ty w).1
    | .shadow => (s.mapHub (fun h => (h.misOutcome 2).rpCount k 8 8)).handOver k n p w
    | .neither =>
      if k = 3 then
        (s.mapHub (fun h => (((h.misOutcome 4).rpCount 3 24 4).health 0x50 n 0x87 0).rerunHeld p)).mapHub (fun h => h.dropDwell 3)
      else
        s.mapHub (fun h =>
          let h1 := ((((h.misOutcome 3).rpCount k 8 8).rpCount k 16 8).dropDwell k).markRetired ty p 0xFFFF
          let h2 := h1.markRetired ty w 0xFFFF
          ((h2.servedBy ty n).foldl Hub.unitFault h2).closeHold (h2.servedBy ty n).head?)
  | _, _ => s

def execVote (k : Nat) (op : Opinion) (s : State) : Host.Outcome State Fault Refusal := .next (if k < 4 then s.vote k op else s).settle

/-- VOTE_TIMEOUT: the live outputs go on, and the shadow ends its dwell. -/
def State.voteTimeout (s : State) (k : Nat) : State :=
  let x := s.hub.shd k
  match x.live with
  | none => s
  | some n =>
    if x.phase ≠ 3 then s else
    (s.mapHub (fun h => (((h.misOutcome 5).rpCount k 28 4).releaseHold k).health (kindType k) n 0x88 0)).endDwell k

def execVoteTimeout (k : Nat) (s : State) : Host.Outcome State Fault Refusal := .next (if k < 4 then s.voteTimeout k else s).settle

/-! ### Scheduling (R292) -/

/-- The change of scheduling that the conditions ask for, if any; below MEADOW they are not evaluated (R313). -/
def Hub.wantsStealing (h : Hub) : Option Bool :=
  let live := h.liveEngines.length
  if !h.mbonik || h.pwr.state > 1 then none
  else if !h.rp.stealing && h.bit 0x100000 2 && ((live < 64 && (h.spareUnits 0x50).isEmpty) || decide (10 ≤ h.rp.high)) then some true
  else if h.rp.stealing && live == 64 && decide (100 ≤ h.rp.low) then some false
  else none

/-- SCHEDULING_CHANGE. -/
def Hub.schedulingChange (h : Hub) : Hub :=
  match h.wantsStealing with
  | none => h
  | some b => ({ h with rp := { h.rp with stealing := b } }).layoutChange

def execSchedulingChange (s : State) : Host.Outcome State Fault Refusal := s.run Hub.schedulingChange

/-- RP_NEXT: the dwells end at the next epoch (R297). -/
def Hub.rpNext (h : Hub) : Hub := [0, 1, 2, 3].foldl (fun g k => g.setShd k { g.shd k with next := true }) h

def execRpNext (s : State) : Host.Outcome State Fault Refusal := s.run Hub.rpNext

/-- The load of an epoch in percent, a part of one counting as one where up is set: cycles in TASK and HANDLER of LIVE engines, of those the ENG
clock gave them (R292). (log 65: DEDUCED) -/
def Hub.loadOf (h : Hub) (cyclesPerEpoch : Nat) (up : Bool) : Nat :=
  let l := h.liveEngines
  let all := l.length * cyclesPerEpoch
  if all = 0 then 0
  else (l.foldl (fun n e => n + ((h.eng e).cycles - (h.eng e).mark).toNat) 0 * 100 + (if up then all - 1 else 0)) / all

/-- A schedule epoch for self-repair: ages of dwells, NEXT, returns, and the load of the epoch that has ended. -/
def State.repairEpoch (s : State) (cyclesPerEpoch : Nat) : State :=
  let age (t : State) (k : Nat) : State :=
    let x := t.hub.shd k
    let t1 := if x.next && (x.phase == 1 || x.phase == 2) then t.endDwell k else t
    t1.mapHub (fun h => let y := h.shd k
                        h.setShd k { y with elapsed := if y.phase = 0 then 0 else min 1023 (y.elapsed + 1),
                                            next := y.next && y.phase == 3, ask := true })
  ([0, 1, 2, 3].foldl age s).mapHub (fun h =>
    let v := h.loadOf cyclesPerEpoch true
    let h1 := { h with rp := { h.rp with load := min 127 (h.loadOf cyclesPerEpoch false), high := if v > 90 then min 127 (h.rp.high + 1) else 0,
                                         low := if v ≤ 75 then min 127 (h.rp.low + 1) else 0 } }
    let h2 := h1.liveEngines.foldl (fun g e => g.setEng e { g.eng e with mark := (g.eng e).cycles }) h1
    if h2.mbonik then h2.engReturn.rehome else h2)

/-! ### Registers (R118, R122, R145, R297) -/

/-- PHYS, ROLE and LOGICAL of page n of kind k: its last unit where one serves or served it; a spare page tells of its own unit. -/
def Hub.pageUnit (h : Hub) (k n : Nat) : Nat × Nat × Nat :=
  let ty := kindType k
  let none_ := if k = 1 then 0x7F else 0x3F
  if n < logicalCount ty then (h.physOf ty n, if h.unitOk ty n then 2 else 3, n)
  else
    match h.unitState ty n with
    | 3 => (n, 3, none_)
    | 1 => (n, 2, (h.logicalOf ty n).getD none_)
    | _ => if (h.shd k).spare = some n then (n, 1, (h.shd k).live.getD none_) else (n, 0, none_)

/-- What a fabric read of a Bank H, Bank M or resampler page gives. -/
def Hub.hchRead (h : Hub) (n off : Nat) : Word :=
  if off = 0x10 then
    let (p, r, l) := h.pageUnit 0 n
    let x := h.hsl n
    BitVec.ofNat 32 (p + (h.sliceOwner 1 n).isSome.toNat * 2 ^ 8 + x.pending.toNat * 2 ^ 9 + ((h.sliceOwner 1 n).isSome && x.priming).toNat * 2 ^ 10 + r * 2 ^ 12 + l * 2 ^ 14
      + min 0xFFF x.settle * 2 ^ 20)
  else h.seen (hchReg n off)
def Hub.mchRead (h : Hub) (n off : Nat) : Word :=
  if off = 0x08 then
    let (p, r, l) := h.pageUnit 1 n
    let x := h.msl n
    BitVec.ofNat 32 (p + (h.sliceOwner 2 n).isSome.toNat * 2 ^ 8 + x.pending.toNat * 2 ^ 9 + ((h.sliceOwner 2 n).isSome && x.priming).toNat * 2 ^ 10
      + x.syncWait.toNat * 2 ^ 11 + r * 2 ^ 12 + l * 2 ^ 14 + min 0x7FF x.settle * 2 ^ 21)
  else h.seen (mchReg n off)
def Hub.rsmRead (h : Hub) (n off : Nat) : Word :=
  match off with
  | 0x0C =>
    let (p, r, l) := h.pageUnit 2 n
    let x := h.rsl n
    let grid := match h.rsmpOwner n with
      | none => false
      | some sid => x.next.isSome && h.synced (h.domain sid) && [StreamState.armed, StreamState.running].contains (h.strm sid).state
    BitVec.ofNat 32 (p + (h.rsmpOwner n).isSome.toNat * 2 ^ 8 + x.pending.toNat * 2 ^ 9 + grid.toNat * 2 ^ 10 + r * 2 ^ 12 + l * 2 ^ 14)
  | 0x14 => if n < 32 then (h.rsl n).last.setWidth 32 else 0
  | _ => h.seen (rsmReg n off)

/-- RP_SHADOWk. -/
def Hub.rpShadow (h : Hub) (k : Nat) : Word :=
  let x := h.shd k
  BitVec.ofNat 32 (x.live.getD 0x7F + x.spare.getD 0x7F * 2 ^ 8 + x.phase * 2 ^ 16 + x.elapsed * 2 ^ 20)

/-- RP_OTP. -/
def Hub.rpOtp (h : Hub) : Word :=
  let r := h.rp
  BitVec.ofNat 32 (r.otp.length + min 255 r.badChk * 2 ^ 8 + (decide (64 ≤ r.otp.length)).toNat * 2 ^ 16 + r.late.toNat * 2 ^ 17)

/-- What a fabric read of the self-repair registers gives. -/
def Hub.rpRead (h : Hub) (off : Nat) : Word :=
  match off with
  | 0x004 => BitVec.ofNat 32 (h.rp.stealing.toNat
      + ([0, 1, 2, 3].foldl (fun n k => n + (decide ((h.shd k).phase = 3)).toNat * 2 ^ (k + 4)) 0))
  | 0x010 => h.rpShadow 0
  | 0x014 => h.rpShadow 1
  | 0x018 => h.rpShadow 2
  | 0x01C => h.rpShadow 3
  | 0x034 => BitVec.ofNat 32 (h.rp.load + h.rp.high * 2 ^ 8 + h.rp.low * 2 ^ 16)
  | 0x040 => h.rpOtp
  | _ =>
    if 0x800 ≤ off ∧ off < 0xA00 then
      let e := (h.rp.otp[(off - 0x800) / 8]?).getD 0
      if off / 4 % 2 = 0 then e.setWidth 32 else (e >>> 32).setWidth 32
    else h.seen (0x100000 + off)

/-- A fabric write to the self-repair registers. -/
def Hub.rpWrite (h : Hub) (off : Nat) (v : Word) : Hub :=
  let h1 := h.putReg rpErr 0 (0x100000 + off) false anyField v
  if off = 0 ∧ v.getLsbD 1 then h1.rpNext else h1

end Sys2Proof.Machine
end

