-- ==== Sys2Proof/Machine/Ageing.lean ====
section
/-! DEFINITION. Ageing and margins (R298 to R305, R433): monitors, the planner's cycle, the guard, the AVS handshake and the engine clock.
What a monitor measures arrives with the command that samples it; the Col pair's self-tests tell their failures the same way. -/

namespace Sys2Proof.Machine

/-- The ageing part set. -/
def Hub.setAge (h : Hub) (a : Ageing) : Hub := { h with age := a }

/-- AG_CTRL fields. -/
def Hub.planEn (h : Hub) : Bool := h.bit 0x100100 0
/-- (log 70: DEDUCED) -/
def Hub.avsSettle (h : Hub) : Nat := h.fld 0x100100 8 8

/-- A PLANNER record with an action (R304). -/
def Hub.planner (h : Hub) (action : Nat) : Hub :=
  let a := h.age
  h.sysRecord 0x19 0 (BitVec.ofNat 40 (a.plan + a.step * 2 ^ 8 + action * 2 ^ 12 + (a.m % 65536).toNat * 2 ^ 16 + a.limit * 2 ^ 32))

/-! ### AVS (R303, R312) -/

/-- The code the pins shall show: the planned one, lowered in HOLLOW and BASIN. -/
def Ageing.goal (a : Ageing) (dropped : Nat) : Nat := a.plan - dropped

/-- The next code toward the goal is driven, unless a change is under way or a fault stands (R303). -/
def Hub.avsDrive (h : Hub) : Hub :=
  let a := h.age
  let g := a.goal h.pwr.dropped
  if a.avs ≠ 0 ∨ a.fault ∨ a.vid = g then h
  else h.setAge { a with back := a.vid, vid := if a.vid < g then a.vid + 1 else a.vid - 1, avs := 1, avsAt := h.now }

/-- The planned code changes by one step, which posts an action once it has settled. (log 67: DEDUCED) -/
def Hub.planTo (h : Hub) (v action : Nat) : Hub := (h.setAge { h.age with plan := v, post := some action }).avsDrive

/-- AVS_PGOOD_HIGH: the settle wait begins. -/
def Hub.avsGood (h : Hub) : Hub := if h.age.avs = 1 then h.setAge { h.age with avs := 2, avsAt := h.now } else h

def execAvsPgoodHigh (s : State) : Host.Outcome State Fault Refusal := s.run Hub.avsGood

/-- AVS_SETTLE_END: the next change may follow; a planner's step that is complete posts its record (R303, R304). (log 67: DEDUCED) -/
def Hub.avsSettled (h : Hub) : Hub :=
  if h.age.avs ≠ 2 then h else
  let h1 := (h.setAge { h.age with avs := 0 }).avsDrive
  match h1.age.post with
  | some action => if h1.age.avs = 0 then (h1.planner action).setAge { h1.age with post := none } else h1
  | none => h1

def execAvsSettleEnd (s : State) : Host.Outcome State Fault Refusal := s.run Hub.avsSettled

/-- AVS_FAULT: the pins return to the previous code, and no voltage step follows until the fault is cleared. A planned step that failed is
no longer planned; a code still to be restored from HOLLOW or BASIN is (R303, R312). (log 70: DEDUCED) -/
def Hub.avsFail (h : Hub) : Hub :=
  let a := h.age
  if a.avs ≠ 1 then h else
  let planned := a.post.isSome
  let h1 := h.setAge { a with vid := a.back, avs := 0, fault := true, post := none, plan := if planned then a.back + h.pwr.dropped else a.plan,
                              steps := if planned && a.vid > a.back then a.steps.dropLast else a.steps }
  (h1.planner 7).health 0x60 0 0x82 h1.age.vid

def execAvsFault (s : State) : Host.Outcome State Fault Refusal := s.run Hub.avsFail

/-- CLR_AVS. -/
def Hub.clrAvs (h : Hub) : Hub := (h.setAge { h.age with fault := false }).avsDrive

def execClrAvs (s : State) : Host.Outcome State Fault Refusal := s.run Hub.clrAvs

/-! ### Monitors (R298, R301, R433) -/

/-- The place of the least of a list's values, the first where several are. (log 68: DEDUCED) -/
def leastAt (l : List Int) : Nat := (List.range l.length).foldl (fun m i => if l.getD i 0 < l.getD m 0 then i else m) 0
/-- The place of the greatest. (log 68: DEDUCED) -/
def mostAt (l : List Int) : Nat := (List.range l.length).foldl (fun m i => if l.getD i 0 > l.getD m 0 then i else m) 0

/-- Latest slack of canary c, its minimum over the cycle, and temperature of sensor i, signed. -/
def Ageing.slackOf (a : Ageing) (c : Nat) : Int := (tval 0 a.slack c).toInt
def Ageing.lowOf (a : Ageing) (c : Nat) : Int := (tval 0 a.low c).toInt
def Ageing.tempOf (a : Ageing) (i : Nat) : Int := (tval 0 a.temp i).toInt

/-- MONITOR_SAMPLE: the canaries and sensors are read, one event is posted for each excursion above 150 °C, and a slack below 10 ps asks
for the guard. No sample is taken in BASIN. -/
def Hub.monitor (h : Hub) (slack : List (BitVec 16)) (temp : List (BitVec 12)) : Hub :=
  if h.pwr.state = 4 then h else
  let a := h.age
  let sl := (slack.take 32).zipIdx.foldl (fun (t : Tab (BitVec 16)) (e : BitVec 16 × Nat) => tset 0 t e.2 e.1) a.slack
  let a1 := { a with slack := sl, temp := (temp.take 8).zipIdx.foldl (fun (t : Tab (BitVec 12)) (e : BitVec 12 × Nat) => tset 0 t e.2 e.1) a.temp }
  let least (c : Nat) : BitVec 16 := if a.fresh && decide (a.lowOf c ≤ a1.slackOf c) then tval 0 a.low c else tval 0 a1.slack c
  let worst := leastAt ((List.range 32).map a1.slackOf)
  let a2 := { a1 with low := (List.range 32).foldl (fun t c => tset 0 t c (least c)) a.low, fresh := true,
                      guardDue := if a1.slackOf worst < 10 && a.vid < 32 && decide (h.pwr.state < 3) then some worst else none }
  let temps := (List.range 8).map a1.tempOf
  let top := mostAt temps
  let h1 := h.setAge a2
  if !a.hot && temps.getD top 0 > 600 then (h1.setAge { a2 with hot := true }).health 0x60 top 0x80 (tval 0 a1.temp top).toNat
  else if a.hot && temps.all (fun t => t < 580) then h1.setAge { a2 with hot := false }
  else h1

def execMonitorSample (slack : List (BitVec 16)) (temp : List (BitVec 12)) (s : State) : Host.Outcome State Fault Refusal :=
  s.run (fun h => h.monitor slack temp)

/-- VMIN_PROBE (R298). -/
def Hub.vminProbe (h : Hub) (b mv : Nat) : Hub := if b < 16 then h.setAge { h.age with vmin := tput h.age.vmin b mv } else h

def execVminProbe (b : Nat) (mv : BitVec 10) (s : State) : Host.Outcome State Fault Refusal := s.run (fun h => h.vminProbe b mv.toNat)

/-- Bin of the histogram for a temperature in 0.25 °C (R298). -/
def histBin (t : Int) : Nat := if t < 0 then 0 else min 15 (t.toNat / 40 + 1)

/-- A minute, in 1/64 ns. -/
def histMinute : Nat := 3840000000000

/-- THERMAL_HISTOGRAM_TICK (R298). (log 112: DEDUCED) -/
def Hub.histTick (h : Hub) : Hub :=
  let temps := (List.range 8).map h.age.tempOf
  let b := histBin (temps.getD (mostAt temps) 0)
  h.setAge { h.age with
    histFor := if histMinute ≤ h.age.histFor then h.age.histFor - histMinute else h.age.histFor,
    hist := tset 0 h.age.hist b (BitVec.ofNat 32 (satAdd 32 (tval 0 h.age.hist b).toNat 1)) }

def execThermalHistogramTick (s : State) : Host.Outcome State Fault Refusal := s.run Hub.histTick

/-- GUARD_STEP: canary c was below 10 ps in the last sample, on which the guard acts once (R301). -/
def Hub.guardStep (h : Hub) (c : Nat) : Hub :=
  let a := h.age
  if a.guardDue ≠ some c then h
  else if h.pwr.state ≥ 3 ∨ a.fault ∨ 32 ≤ a.plan ∨ 32 ≤ c ∨ ¬ a.slackOf c < 10 then h.setAge { a with guardDue := none } else
  let h1 := (h.setAge { a with guarded := true, guardDue := none, changedAt := h.now, limit := c,
                               steps := a.steps ++ [{ volt := true, vid := a.plan, before := 0, gain := none, guard := true }] }).setBit 0x100104 12 true
  (h1.planTo (a.plan + 1) 6).health 0x60 c 0x81 (a.plan + 1)

def execGuardStep (c : Nat) (s : State) : Host.Outcome State Fault Refusal := s.run (fun h => h.guardStep c)

/-! ### The planner's cycle (R299, R300) -/

/-- SRAM margin of a bank in mV, once a probe has measured it. -/
def Ageing.sramMargin (a : Ageing) (b : Nat) : Option Int := (tget a.vmin b).map (fun v => (720 + 5 * a.vid : Int) - v)

/-- Banks in service with an SRAM margin below 60 mV. -/
def Hub.shortBanks (h : Hub) : List Nat :=
  (List.range 16).filter (fun b => !h.bankOut.getLsbD b && (h.age.sramMargin b).any (fun m => m < 60))

/-- The units with spares in the region of a canary (R298). -/
def regionUnits (c : Nat) : List (Nat × Nat) :=
  if c ≤ 8 then (List.range 8).map (fun i => (0x50, 8 * c + i))
  else if 19 ≤ c ∧ c ≤ 22 then (List.range 13).map (fun i => (0x10, 13 * (c - 19) + i))
  else if c = 23 ∨ c = 24 then (List.range 34).map (fun i => (0x11, 34 * (c - 23) + i))
  else if c = 25 then (List.range 34).map (fun i => (0x12, i))
  else []

/-- A cycle's measurement: M and the limiting canary; the gains of the steps taken in the cycle before, and what the guard's steps in this one
start from (R299, R301). (log 68: DEDUCED) -/
def Hub.measure (h : Hub) : Hub :=
  let a := h.age
  let lows := (List.range 32).map a.lowOf
  let c := leastAt lows
  let m := lows.getD c 0
  let gain (p : PlanStep) : PlanStep :=
    if p.guard then { p with before := m, guard := false }
    else if p.gain.isNone then { p with gain := some (max 0 (m - p.before)) }
    else p
  h.setAge { a with m := m, limit := c, steps := a.steps.map gain }

/-- A retirement step (R300). -/
def State.retireStep (s : State) (failed : List UnitId) (timing : Bool) : State :=
  let units := if timing then
      (regionUnits s.hub.age.limit).filter (fun u => s.hub.unitState u.1 u.2 != 3 && failed.any (fun f => f.ty == u.1 && f.phys == u.2))
    else []
  let banks := s.hub.shortBanks
  let s1 := units.foldl (fun t u => (t.retireUnit u.1 u.2).1) s
  let s2 := s1.mapHub (fun h => banks.foldl Hub.bankRetire h)
  s2.mapHub (fun h =>
    if !units.isEmpty || !banks.isEmpty then (h.setAge { h.age with changedAt := h.now }).planner 5
    else if h.age.exhausted then h
    else ((h.setAge { h.age with exhausted := true }).planner 8).health 0x60 h.age.limit 0x83 0)

/-- The undo of the most recent step in force (R299, R304). -/
def Hub.relax (h : Hub) : Hub :=
  let a := h.age
  match a.steps.getLast? with
  | none => h
  | some p =>
    match p.gain with
    | none => h
    | some g =>
      if h.now < a.changedAt + 600 * 64000000000 ∨ a.m - g < 35 then h
      else if p.volt then
        if a.fault then h else (h.setAge { a with steps := a.steps.dropLast, changedAt := h.now }).planTo (a.plan - 1) 2
      else if h.pwr.state ≤ 1 ∧ a.clock.isNone ∧ p.vid = a.plan then h.setAge { a with clock := some (a.step - 1, some p.vid), changedAt := h.now }
      else h

/-- PLANNER_CYCLE: at most one step; failed are the units of the region that fail the self-test, should one be run. (log 68: DEDUCED) -/
def State.plannerCycle (s : State) (failed : List UnitId) : State :=
  if !s.hub.mbonik || s.hub.pwr.state ≥ 3 then s
  else if !s.hub.age.fresh then s.mapHub (fun h => h.setAge { h.age with since := h.now, guarded := false })
  else
    let s1 := s.mapHub Hub.measure
    let a := s1.hub.age
    let timing := decide (a.m < 25)
    let short := timing || !s1.hub.shortBanks.isEmpty
    let s2 :=
      if !s1.hub.planEn || a.guarded then s1
      else if short then
        if a.plan < 32 ∧ !a.fault then
          s1.mapHub (fun h => (h.setAge { a with steps := a.steps ++ [{ volt := true, vid := a.plan, before := a.m, gain := none }],
                                                 changedAt := h.now }).planTo (a.plan + 1) 1)
        else if timing ∧ a.limit ≤ 10 ∧ a.step < 3 ∧ a.clock.isNone ∧ s1.hub.pwr.state ≤ 1 then
          s1.mapHub (fun h => h.setAge { a with steps := a.steps ++ [{ volt := false, vid := a.plan, before := a.m, gain := none }],
                                                clock := some (a.step + 1, none), changedAt := h.now })
        else s1.retireStep failed timing
      else s1.mapHub Hub.relax
    s2.mapHub (fun h => h.setAge { h.age with exhausted := h.age.exhausted && short, fresh := false, since := h.now, guarded := false })

def execPlannerCycle (failed : List UnitId) (s : State) : Host.Outcome State Fault Refusal := .next (s.plannerCycle failed).settle

/-! ### The engine clock (R304, R306) -/

/-- The ENG clock in MHz: the planner's, 400 while its PLL relocks, or that of the power state. -/
def Hub.engClock (h : Hub) : Nat :=
  match h.pwr.state with
  | 2 => 100
  | 3 => 50
  | 4 => 0
  | _ => if h.age.relock.isSome then 400 else engMhz h.age.step

/-- A clock step takes place at a schedule epoch of RUN or MEADOW; an undo only if VID is unchanged since the clock was lowered, and once the
voltage has settled (R302 to R304). (log 67: DEDUCED) -/
def Hub.clockStep (h : Hub) : Hub :=
  let a := h.age
  if 2 ≤ h.pwr.state then h else
  match a.clock with
  | none => h
  | some (st, none) => (h.setAge { a with step := st, clock := none, relock := some 3 }).layoutChange
  | some (st, some v) =>
    if a.avs ≠ 0 then h
    else if v = a.plan then (h.setAge { a with step := st, clock := none, relock := some 4, steps := a.steps.dropLast }).layoutChange
    else h.setAge { a with clock := none }

/-- ENG_PLL_RELOCK: ENG runs from its PLL again; retired engines that pass the self-test at the new clock return (R291, R304). Whether one
passes is a free value. (log 67: DEDUCED) (log 69: DESIGN CHOICE) -/
def Hub.pllRelock (h : Hub) : Hub :=
  match h.age.relock with
  | none => h
  | some action =>
    let h1 := (h.setAge { h.age with relock := none }).planner action
    if !h1.mbonik then h1 else
    (List.range 72).foldl (fun g e =>
      if g.unitState 0x50 e = 3 then
        let (v, g1) := g.fresh
        if v.getLsbD 0 then g1.engPassed e else g1
      else g) h1

def execEngPllRelock (s : State) : Host.Outcome State Fault Refusal := s.run Hub.pllRelock

/-! ### Registers (R305) -/

/-- AG_STATUS. -/
def Hub.agStatus (h : Hub) : Word :=
  let a := h.age
  BitVec.ofNat 32 (a.vid + a.step * 2 ^ 8 + (h.bit 0x100104 12).toNat * 2 ^ 12 + a.fault.toNat * 2 ^ 13 + a.exhausted.toNat * 2 ^ 14
    + (a.m % 65536).toNat * 2 ^ 16)

/-- What a fabric read of the ageing registers gives. -/
def Hub.agRead (h : Hub) (off : Nat) : Word :=
  let a := h.age
  if off = 0x104 then h.agStatus
  else if 0x140 ≤ off ∧ off < 0x1C0 then (tval 0 a.low ((off - 0x140) / 4)) ++ (tval 0 a.slack ((off - 0x140) / 4))
  else if 0x1C0 ≤ off ∧ off < 0x200 then BitVec.ofNat 32 (tval 0 a.vmin ((off - 0x1C0) / 4))
  else if 0x200 ≤ off ∧ off < 0x220 then (tval 0 a.temp ((off - 0x200) / 4)).setWidth 32
  else if off = 0x220 then BitVec.ofNat 32 (a.onFor / 64000000000)
  else if 0x240 ≤ off ∧ off < 0x280 then tval 0 a.hist ((off - 0x240) / 4)
  else h.seen (0x100000 + off)

/-- A fabric write to the ageing registers. -/
def Hub.agWrite (h : Hub) (off : Nat) (v : Word) : Hub :=
  let h1 := h.putReg rpErr 0 (0x100000 + off) false anyField v
  if off = 0x100 ∧ v.getLsbD 1 then h1.clrAvs else h1

end Sys2Proof.Machine
end

