-- ==== Sys2Proof/Machine/Net.lean ====
section
/-! DEFINITION. Ethernet and network time (R356 to R375) and record datagrams (R231, R370 to R372): links, frames queued and sent, one-step
Sync, the servo, PTP roles and MDIO. -/

namespace Sys2Proof.Machine

/-- Address of a MAC's register, EM_ERR and PTP_ERR (R374, R375). -/
def macReg (m off : Nat) : Nat := 0xF0000 + 0x8000 * m + off
def macErr (m : Nat) : ErrReg := ⟨macReg m 0x7C, 2, 0, 0⟩
def ptpErr : ErrReg := ⟨0xF707C, 3, 0, 0⟩

/-- MAC m, and MAC m set. -/
def Hub.mac (h : Hub) (m : Nat) : Mac := tval Mac.init h.macs m
def Hub.setMac (h : Hub) (m : Nat) (x : Mac) : Hub := { h with macs := tset Mac.init h.macs m x }

/-- PTP set. -/
def Hub.setPtp (h : Hub) (x : Ptp) : Hub := { h with ptp := x }

/-- The MAC runs: enabled, in RUN or MEADOW (R306). -/
def Hub.macOn (h : Hub) (m : Nat) : Bool := h.bit (macReg m 0) 0 && decide (h.pwr.state ≤ 1)

/-- MODE, and whether frames can leave now. -/
def Hub.macMode (h : Hub) (m : Nat) : Nat := h.fld (macReg m 0) 1 2
def Hub.macSends (h : Hub) (m : Nat) : Bool := h.macOn m && (h.mac m).link && (h.mac m).pause.isNone

/-! ### Links (R356, R357, R359) -/

/-- LINK_DOWN: a datagram that was leaving is cut short (R370). -/
def Hub.linkDown (h : Hub) (m : Nat) : Hub :=
  let x := h.mac m
  if !x.link then h else
  let h1 := h.setMac m { x with link := false, anDone := false, txLpi := false, rxLpi := false, pause := none, dg := none }
  if x.dg.isSome then h1.bump (macReg m 0x74) 24 8 1 else h1

def execLinkDown (m : Nat) (s : State) : Host.Outcome State Fault Refusal := s.run (fun h => if m < 2 then h.linkDown m else h)

/-- What the lane shows means that the link is up (R356, R357). -/
def Hub.linkGood (h : Hub) (m : Nat) (l : LinkWord) : Bool :=
  if h.macMode m = 1 ∨ !h.bit (macReg m 0) 3 then l.sync else l.sync && l.up && l.gig && l.full

/-- LINK_UP. -/
def Hub.linkUp (h : Hub) (m : Nat) (l : LinkWord) : Hub :=
  if !h.macOn m || h.supply.getLsbD 1 || h.supply.getLsbD 4 then h
  else if h.linkGood m l then h.setMac m { h.mac m with link := true, anDone := h.macMode m = 0 && h.bit (macReg m 0) 3 }
  else h.linkDown m

def execLinkUp (m : Nat) (lw : LinkWord) (s : State) : Host.Outcome State Fault Refusal :=
  s.run (fun h => if m < 2 then h.linkUp m lw else h)

/-- LPI_ENTER (R359). (log 111: DEDUCED) -/
def Hub.lpiEnter (h : Hub) (m : Nat) : Hub :=
  let x := h.mac m
  if h.pwr.state = 1 ∧ h.macOn m ∧ h.bit (macReg m 0) 5 ∧ x.link ∧ x.frames.isEmpty ∧ x.dg.isNone then h.setMac m { x with txLpi := true } else h

def execLpiEnter (m : Nat) (s : State) : Host.Outcome State Fault Refusal := s.run (fun h => if m < 2 then h.lpiEnter m else h)

/-- PAUSE_EXPIRE (R357). -/
def Hub.pauseExpire (h : Hub) (m : Nat) : Hub := h.setMac m { h.mac m with pause := none }

def execPauseExpire (m : Nat) (s : State) : Host.Outcome State Fault Refusal := s.run (fun h => if m < 2 then h.pauseExpire m else h)

/-! ### Stamps (R360 to R362) -/

/-- L_tx and L_rx in 1/16 ns for a mode. -/
def latTx (mode : Nat) : Nat := if mode = 1 then 0x1B2 else 0x334
def latRx (mode : Nat) : Nat := if mode = 1 then 0x280 else 0x54C

/-- t_tx and t_rx in 1/16 ns of TIME, before any reduction. -/
def Hub.txInstant (h : Hub) (m : Nat) (ts : Word) (frac : BitVec 4) : Int :=
  (ts.toNat * 16 + frac.toNat : Nat) + latTx (h.macMode m) + (h.reg (macReg m 0x64)).toInt
def Hub.rxInstant (h : Hub) (m : Nat) (ts : Word) (frac : BitVec 4) : Int :=
  (ts.toNat * 16 + frac.toNat : Nat) - latRx (h.macMode m) - (h.reg (macReg m 0x60)).toInt

/-! ### Frames of Mbonik, and what leaves (R357, R359, R370) -/

/-- A frame is queued; it ends low-power idle. -/
def Hub.queueFrame (h : Hub) (m : Nat) (f : OutFrame) : Hub :=
  let x := h.mac m
  h.setMac m { x with frames := x.frames ++ [f], txLpi := false }

/-- The station address of a MAC, and the identity made of it. -/
def Hub.station (h : Hub) (m : Nat) : BitVec 48 := (h.reg (macReg m 0x0C)).setWidth 16 ++ h.reg (macReg m 0x08)
/-- (log 77: PRESUMED) -/
def Hub.ownIdentity (h : Hub) (m : Nat) : BitVec 64 :=
  let a := h.station m
  a.extractLsb' 24 24 ++ (0xFFFE : BitVec 16) ++ a.extractLsb' 0 24

/-- The 16-bit words of a number, n of them, and their ones'-complement sum. -/
def wordsOf (n v : Nat) : List Nat := (List.range n).map (fun i => (v >>> (16 * i)) % 65536)
def onesSum (l : List Nat) : Nat := l.foldl (fun a w => let s := a + w
                                                       s % 65536 + s / 65536) 0

/-- A one-step Sync as it leaves (R364 to R366). Mbonik writes originTimestamp, correctionField and trailer as zeros. (log 78: DEDUCED) -/
def Hub.sentSync (h : Hub) (m : Nat) (ts : Word) (frac : BitVec 4) : SentSync :=
  let bare := decide (h.fld 0xF7000 1 2 = 1)
  if !h.tb.epochValid then { seconds := 0, ns := 0, corr := 0, trailer := 0, filled := false, noSum := bare } else
  let t := ((h.tb.epochTotal * 16 : Nat) + h.txInstant m ts frac).toNat
  let s := t / 16 / 1000000000
  let ns := t / 16 % 1000000000
  let c := t % 16 * 4096
  let tr := if h.fld 0xF7000 1 2 = 2 then 65535 - onesSum (wordsOf 3 (s % 2 ^ 48) ++ wordsOf 2 ns ++ wordsOf 4 c) else 0
  { seconds := BitVec.ofNat 48 s, ns := BitVec.ofNat 32 ns, corr := BitVec.ofNat 64 c, trailer := BitVec.ofNat 16 tr, filled := true, noSum := bare }

/-- Bytes of a number in network order. -/
def netBytes (n v : Nat) : List Byte := (bytesOf n v).reverse

/-- The Internet checksum of bytes: the complement of the ones'-complement sum of their 16-bit words, an odd last byte padded. -/
def netWords : List Byte → List Nat
  | a :: b :: r => (a.toNat * 256 + b.toNat) :: netWords r
  | [a] => [a.toNat * 256]
  | [] => []
def netSum (l : List Byte) : Nat := 65535 - onesSum (netWords l)

/-- A record datagram as UDP: ports, length, and the checksum with the pseudo-header of the IP version (R370). (log 140: PRESUMED) -/
def Hub.dgUdp (h : Hub) (m : Nat) (payload : List Byte) : List Byte :=
  let n := 8 + payload.length
  let ends := if h.bit (macReg m 0x44) 0 then
      [0x20, 0x24, 0x28, 0x2C, 0x50, 0x54, 0x58, 0x5C].flatMap (fun o => netBytes 4 (h.reg (macReg m o)).toNat)
    else netBytes 4 (h.reg (macReg m 0x10)).toNat ++ netBytes 4 (h.reg (macReg m 0x38)).toNat
  let ports := netBytes 2 (h.fld (macReg m 0x3C) 16 16) ++ netBytes 2 (h.fld (macReg m 0x3C) 0 16) ++ netBytes 2 n
  let c := netSum (ends ++ netBytes 2 17 ++ netBytes 2 n ++ ports ++ payload)
  ports ++ netBytes 2 (if c = 0 then 65535 else c) ++ payload

/-- Its IP packet: IPv4 with DF, TTL 64, the identification and DSCP, or IPv6 with hop limit 64 and DSCP. (log 140: PRESUMED) -/
def Hub.dgPacket (h : Hub) (m : Nat) (payload : List Byte) : List Byte :=
  let udp := h.dgUdp m payload
  let dscp := h.fld (macReg m 0x14) 8 6
  let word (o : Nat) : List Byte := netBytes 4 (h.reg (macReg m o)).toNat
  if h.bit (macReg m 0x44) 0 then
    netBytes 4 (6 * 2 ^ 28 + dscp * 2 ^ 22) ++ netBytes 2 udp.length ++ [17, 64] ++ [0x20, 0x24, 0x28, 0x2C, 0x50, 0x54, 0x58, 0x5C].flatMap word ++ udp
  else
    let head (sum : Nat) : List Byte := netBytes 2 (0x4500 + dscp * 4) ++ netBytes 2 (20 + udp.length) ++ netBytes 2 ((h.mac m).ident - 1).toNat
      ++ netBytes 2 0x4000 ++ [64, 17] ++ netBytes 2 sum ++ word 0x10 ++ word 0x38
    head (netSum (head 0)) ++ udp

/-- Its frame on the wire: addresses, a tag with VLAN_EN, the packet and the FCS (R357, R370). (log 140: PRESUMED) -/
def Hub.dgFrame (h : Hub) (m : Nat) (payload : List Byte) : List Byte :=
  let tag := if h.bit (macReg m 0x14) 31 then netBytes 2 0x8100 ++ netBytes 2 (h.fld (macReg m 0x14) 28 3 * 2 ^ 13 + h.fld (macReg m 0x14) 16 12) else []
  let f := netBytes 2 (h.fld (macReg m 0x34) 0 16) ++ netBytes 4 (h.reg (macReg m 0x30)).toNat ++ netBytes 6 (h.station m).toNat ++ tag
    ++ netBytes 2 (if h.bit (macReg m 0x44) 0 then 0x86DD else 0x0800) ++ h.dgPacket m payload
  f ++ bytesOf 4 (crc32 f).toNat

/-- The first frame of a MAC's queue, or else its datagram, has left (R357, R360, R370). -/
def Hub.frameOut (h : Hub) (m : Nat) (ts : Word) (frac : BitVec 4) : Hub :=
  let x := h.mac m
  if !h.macSends m then h else
  let at_ := BitVec.ofInt 36 (h.txInstant m ts frac)
  let sent (y : Mac) : Hub := (h.setMac m y).bump (macReg m 0x70) 0 16 1
  match x.frames with
  | [] =>
    match x.dg with
    | some d => sent { x with dg := none, left := h.dgFrame m d.2 }
    | none => h
  | f :: rest =>
    let y := { x with frames := rest }
    match f with
    | .sync =>
      let h1 := sent { y with txAt := at_, sync := some (h.sentSync m ts frac) }
      if h.tb.epochValid then h1 else h1.bump (macReg m 0x74) 16 8 1
    | .delayReq => sent { y with txAt := at_ }
    | .pdelayResp => sent { y with txAt := at_ }
    | _ => sent y

/-- FRAME_TRANSMIT. -/
def execFrameTransmit (m : Nat) (capTs : Word) (capFrac : BitVec 4) (s : State) : Host.Outcome State Fault Refusal :=
  s.run (fun h => if m < 2 then h.frameOut m capTs capFrac else h)

/-- ONE_STEP_SYNC_TX: the Sync at the head of the queue leaves (R364). -/
def execOneStepSyncTx (m : Nat) (capTs : Word) (capFrac : BitVec 4) (s : State) : Host.Outcome State Fault Refusal :=
  s.run (fun h => if m < 2 ∧ (h.mac m).frames.head? = some .sync then h.frameOut m capTs capFrac else h)

/-! ### PTP roles (R363, R375) -/

/-- PTP runs; profile, role of a port, and the SLAVE port. -/
def Hub.ptpOn (h : Hub) : Bool := h.bit 0xF7004 0
def Hub.profile (h : Hub) : Nat := h.fld 0xF7000 0 1
def Hub.role (h : Hub) (m : Nat) : Nat := h.fld 0xF7000 (16 + 2 * m) 2
def Hub.slavePort (h : Hub) : Option Nat := [0, 1].find? (fun m => h.role m == 1)

/-- The roles and the transport that EN accepts. -/
def Hub.rolesOk (h : Hub) : Bool :=
  !(h.role 0 == 1 && h.role 1 == 1) && !(h.profile == 0 && (h.role 0 == 2 || h.role 1 == 2 || h.fld 0xF7000 1 2 != 0))

/-- PTP_ENABLE: PTP starts in ACQUIRE, or stops with TINC and EPOCH as they are (R369, R375). -/
def Hub.ptpEnable (h : Hub) (en : Bool) : Hub :=
  if !en then (h.setBit 0xF7004 0 false).setPtp { h.ptp with state := 0 }
  else if h.ptpOn then h
  else if !h.rolesOk then h.flag ptpErr 0 0
  else (h.setBit 0xF7004 0 true).setPtp { h.ptp with state := 1, rate := (1, 1), integ := 0, last := none, gm := none, syncAt := h.now, annAt := h.now }

def execPtpEnable (en : Bool) (s : State) : Host.Outcome State Fault Refusal := s.run (fun h => h.ptpEnable en)

/-- Mbonik sends for PTP on port m. -/
def Hub.ptpSends (h : Hub) (m : Nat) : Bool := h.ptpOn && h.mbonik && h.macOn m && (h.mac m).link

/-- What an Announce of a MASTER port carries: the grandmaster learned, one step further, or the hub itself when no port is SLAVE. -/
def Hub.announceData (h : Hub) (m : Nat) : Option GmData :=
  if h.slavePort.isNone then some { gmId := h.ownIdentity m, clockClass := 248, stepsRemoved := 0 }
  else h.ptp.gm.map (fun g => { g with stepsRemoved := g.stepsRemoved + 1 })

/-- PTP_MASTER_TX. -/
def Hub.masterTx (h : Hub) (m : Nat) (announce : Bool) : Hub :=
  if !h.ptpSends m || h.role m != 2 then h
  else if !announce then h.queueFrame m .sync
  else
    match h.announceData m with
    | none => h
    | some g => h.queueFrame m (.announce g)

def execPtpMasterTx (m : Nat) (announce : Bool) (s : State) : Host.Outcome State Fault Refusal :=
  s.run (fun h => if m < 2 then h.masterTx m announce else h)

/-- DELAY_REQUEST_TX: Delay_Req on the SLAVE port, or Pdelay_Req on every port with a role under gPTP. -/
def Hub.delayTx (h : Hub) (m : Nat) : Hub :=
  if h.ptpSends m && (if h.profile = 1 then h.role m == 1 else h.role m != 0) then h.queueFrame m .delayReq else h

def execDelayRequestTx (m : Nat) (s : State) : Host.Outcome State Fault Refusal := s.run (fun h => if m < 2 then h.delayTx m else h)

/-! ### The servo (R367 to R369) -/

/-- a times 2 to a power that may be negative. (log 80: DEDUCED) -/
def scale2 (a e : Int) : Int := if 0 ≤ e then a * 2 ^ e.toNat else a.fdiv (2 ^ (-e).toNat)

/-- TINC for a rate and a correction in 2^-64 ppb, before the clamp: rounded to 2^-32 ns. (log 80: DEDUCED) -/
def Hub.tincFor (h : Hub) (rate : Nat × Nat) (corr : Int) : Int :=
  let one : Int := 2 ^ 64 * 1000000000
  roundDiv ((h.tinc.toNat : Int) * rate.1 * (one - corr)) (rate.2 * one.toNat)

/-- The clamp of R368. -/
def clampTinc (t : Int) : Int := if t < 0x3E0000000 then 0x3E0000000 else if t > 0x420000000 then 0x420000000 else t

/-- Mbonik writes TINC and COMMIT (R72). -/
def Hub.writeTinc (h : Hub) (t : Int) : Hub :=
  let v := t.toNat
  ((h.tbWrite 0x008 (BitVec.ofNat 32 v)).tbWrite 0x00C (BitVec.ofNat 32 (v / 2 ^ 32))).tbCommit

/-- TRACK: one Sync with offset o in 2^-16 ns (R368). (log 80: DEDUCED) -/
def Hub.steer (h : Hub) (o logSync : Int) : Hub :=
  let kp := h.fld 0xF7008 8 4
  let ki := h.fld 0xF7008 12 4
  let p := scale2 o (48 - kp - logSync)
  let i := h.ptp.integ + scale2 o (48 - ki - logSync)
  let t := h.tincFor h.ptp.rate (p + i)
  let c := clampTinc t
  (h.setPtp { h.ptp with integ := if c = t then i else h.ptp.integ, state := 2 }).writeTinc c

/-- A PTP time in ns written to NEXT_EPOCH. -/
def Hub.nextEpoch (h : Hub) (t : Int) : Hub :=
  let (s, ns) := splitNs (t % (2 ^ 48 * 1000000000)).toNat
  h.setNext s ns

/-- A step of EPOCH by the offset, armed for the next wrap. A DISARM that meets a wrap lets the swap proceed, and the step is computed from
the new EPOCH (R367). (log 10: DEDUCED) -/
def Hub.stepEpoch (h : Hub) (o : Int) : Hub :=
  let h := if h.tb.wrapDue && h.tb.armed then h.wrap else h
  let armed := h.fld 0x20044 0 16 * 2 ^ 32 + h.fld 0x20040 0 32
  let base : Int := if h.tb.armed then (armed * 1000000000 + h.fld 0x20048 0 30 : Nat) else (h.tb.epochTotal + 2 ^ 32 : Nat)
  let h1 := (h.tbDisarm.nextEpoch (base - o)).tbArm
  h1.setPtp { h1.ptp with state := 3 }

/-- The servo acts by state on an offset (R367, R369). (log 10: DEDUCED) (log 79: DEDUCED) -/
def Hub.servo (h : Hub) (o logSync : Int) : Hub :=
  let ns := roundDiv o 65536
  let far := decide (h.fld 0xF7008 16 16 * 1000 * 65536 < o.natAbs)
  if !h.bit 0xF7008 0 then h else
  match h.ptp.state with
  | 0 => h
  | 3 => h
  | 1 =>
    if !h.tb.epochValid then
      if h.tb.wrapDue && h.tb.armed then h else
      let h1 := (h.tbDisarm.nextEpoch (h.tb.epochTotal - ns)).tbRepair
      h1.setPtp { h1.ptp with state := 2 }
    else if far then h.stepEpoch ns else h.steer o logSync
  | _ => if far then h.stepEpoch ns else h.steer o logSync

/-- The hub's PTP time of an arrival less the grandmaster's time then, in 2^-16 ns (R362, R367). -/
def Hub.syncOffset (h : Hub) (m : Nat) (y : SyncObs) : Int :=
  (h.tb.epochTotal : Int) * 65536 + h.rxInstant m y.capTs y.capFrac * 4096
    - ((y.originS * 1000000000 + y.originNs : Nat) * 65536 + y.corr + (y.mld.toNat : Int) * 4096)

/-- A value of 32 signed bits, saturating. -/
def sat32 (v : Int) : Word := BitVec.ofInt 32 (if v > 0x7FFFFFFF then 0x7FFFFFFF else if v < -0x80000000 then -0x80000000 else v)

/-- PTP_SYNC_RECEIVE: the offset, the rate over successive Syncs, and the servo. A PASSIVE port reports without steering (R363, R367). (log 79: DEDUCED) -/
def Hub.syncReceive (h : Hub) (m : Nat) (y : SyncObs) : Hub :=
  if !h.ptpSends m || !(h.role m == 1 || h.role m == 3) then h else
  let o := h.syncOffset m y
  let h0 := h.setPtp { h.ptp with offset := sat32 (roundDiv o 65536) }
  if h.role m = 3 then h0 else
  let hub : Int := ((h.tb.wraps.toNat * 2 ^ 36 : Nat) + h.rxInstant m y.capTs y.capFrac) * 4096
  let gm : Int := ((y.originS * 1000000000 + y.originNs : Nat) : Int) * 65536 + y.corr + (y.mld.toNat : Int) * 4096
  let rate := match h.ptp.last with
    | some (a, b) => if hub > a ∧ gm > b then ((gm - b).toNat, (hub - a).toNat) else h.ptp.rate
    | none => h.ptp.rate
  (h0.setPtp { h0.ptp with mld := y.mld, rate := rate, last := some (hub, gm), syncAt := h.now, logSync := y.logSync }).servo o y.logSync

def execPtpSyncReceive (m : Nat) (sy : SyncObs) (s : State) : Host.Outcome State Fault Refusal :=
  s.run (fun h => if m < 2 then h.syncReceive m sy else h)

/-- SERVO_HOLD (R369). -/
def Hub.servoHold (h : Hub) : Hub :=
  match h.slavePort with
  | none => h
  | some m =>
    if !h.ptpOn || !h.mbonik || h.ptp.state == 0 || h.ptp.state == 4 then h else
    let h1 := if h.bit 0xF7008 0 then h.writeTinc (clampTinc (h.tincFor h.ptp.rate h.ptp.integ)) else h
    (h1.setPtp { h1.ptp with state := 4 }).health 0x33 m 0x80 0

def execServoHold (s : State) : Host.Outcome State Fault Refusal := s.run Hub.servoHold

/-! ### MDIO (R373) -/

/-- MDIO_GO: MDIO_CMD written with GO at 1. -/
def Hub.mdioGo (h : Hub) (v : Word) : Hub :=
  if h.ptp.busy then h.flag ptpErr 2 0
  else
    let h1 := h.putReg ptpErr 0 0xF7024 false anyField v
    if h.pwr.state > 1 ∨ 4 < bits v 0 3 then h1
    else h1.setPtp { h1.ptp with busy := true, reads := bits v 0 3 == 1 || bits v 0 3 == 4 }

def execMdioGo (val : Word) (s : State) : Host.Outcome State Fault Refusal := s.run (fun h => h.mdioGo val)

/-- MDIO_DONE. -/
def Hub.mdioDone (h : Hub) (data : Half) (turnHigh : Bool) : Hub :=
  if !h.ptp.busy then h else
  let h1 := h.setPtp { h.ptp with busy := false, nophy := if h.ptp.reads then turnHigh else h.ptp.nophy }
  if h.ptp.reads then h1.setReg 0xF7028 ((if turnHigh then (0xFFFF : Half) else data).setWidth 32) else h1

def execMdioDone (data : Half) (turnHigh : Bool) (s : State) : Host.Outcome State Fault Refusal :=
  s.run (fun h => h.mdioDone data turnHigh)

/-! ### Record datagrams (R231, R370 to R372) -/

/-- The MAC that consumes ring n, if one does. -/
def Hub.ringMac (h : Hub) (n : Nat) : Option Nat :=
  match h.fld (ringReg n 8) 1 2 with
  | 1 => some 0
  | 2 => some 1
  | _ => none

/-- FLUSH_MS of ring n has passed since its oldest unread record was written. -/
def Hub.flushOver (h : Hub) (n : Nat) : Bool :=
  let f := h.fld (ringReg n 0x0C) 25 7
  f != 0 && (match (h.ring n).oldest with
    | none => false
    | some d => decide (d + f * 64000000 ≤ h.now))

/-- FLUSH_MS_EXPIRE: a datagram becomes due, while the oldest unread record is that old (R231). -/
def Hub.flushExpire (h : Hub) (n : Nat) : Hub :=
  if h.ringOn n && (h.ringMac n).isSome && h.flushOver n && !h.dgDue.contains n then { h with dgDue := h.dgDue ++ [n] } else h

def execFlushMsExpire (n : Nat) (s : State) : Host.Outcome State Fault Refusal := s.run (fun h => if n < 128 then h.flushExpire n else h)

/-- The MAC on which ring n can form a datagram now, and at no entry to a deeper state (R231, R359, R370). -/
def Hub.datagramMac (h : Hub) (n : Nat) : Option Nat :=
  let wm := h.fld (ringReg n 0x0C) 0 21
  let fill := (h.ring n).fill
  match h.ringMac n with
  | none => none
  | some m =>
    if !h.pwr.entering && h.ringOn n && h.macOn m && (h.mac m).link && (h.mac m).dg.isNone && decide (0 < fill) && ((wm != 0 && decide (wm ≤ fill)) || (h.dgDue.contains n && h.flushOver n))
    then some m else none

/-- The 40-byte header (R371). (log 117: DEDUCED) -/
def Hub.datagramHead (h : Hub) (n count left : Nat) : List Byte :=
  let r := h.ring n
  let aged := match r.oldest with
    | none => false
    | some d => decide (d + 2000 * 64000000 ≤ h.now)
  let (s, ns) := splitNs (h.tb.epochTotal + h.ts.toNat)
  bytesOf 1 1 ++ bytesOf 1 (h.tb.epochValid.toNat + 2 * (decide (0 < left)).toNat + 4 * aged.toNat) ++ bytesOf 1 n ++ bytesOf 1 count
    ++ bytesOf 4 (tval 0 h.dgSeq n) ++ bytesOf 4 h.ts.toNat ++ bytesOf 4 ns.toNat ++ bytesOf 8 s.toNat
    ++ bytesOf 8 (h.tb.wraps.toNat * 2 ^ 32 + h.ts.toNat) ++ bytesOf 4 r.rd.toNat ++ bytesOf 2 left ++ bytesOf 2 0

/-- DATAGRAM_FORM: badWords are the places, among the records taken, of those whose SRAM word is uncorrectable. -/
def State.datagramForm (s : State) (n : Nat) (bad : List Nat) : State :=
  let h := s.hub
  match h.datagramMac n with
  | none => s
  | some m =>
    let r := h.ring n
    let k := min r.fill 88
    let good := (List.range k).filter (fun i => !bad.contains i)
    let body := good.flatMap (fun i => s.load (h.recordAddr n (r.rd + BitVec.ofNat 32 i)) 16)
    let x := h.mac m
    let h1 := h.setMac m { x with dg := some (n, h.datagramHead n good.length (k - good.length) ++ body), served := n, ident := x.ident + 1,
                                  txLpi := false }
    let h2 := { h1.setRing n { r with rd := r.rd + BitVec.ofNat 32 k } with
                dgSeq := tset 0 h1.dgSeq n ((tval 0 h1.dgSeq n + 1) % 2 ^ 32), dgDue := h1.dgDue.erase n }
    { s with hub := (List.range (k - good.length)).foldl (fun g _ => g.parityError 0xEF040 0x41 n) (h2.bump (ringReg n 0x2C) 16 16 1) }

def execDatagramForm (n : Nat) (badWords : List Nat) (s : State) : Host.Outcome State Fault Refusal :=
  .next (if n < 128 then s.datagramForm n badWords else s).settle

/-! ### Registers (R374, R375) -/

/-- What a fabric read of a MAC's page gives. -/
def Hub.macRead (h : Hub) (m off : Nat) : Word :=
  let x := h.mac m
  match off with
  | 0x004 => BitVec.ofNat 32 (x.link.toNat + x.anDone.toNat * 2 + x.txLpi.toNat * 4 + x.rxLpi.toNat * 8)
  | 0x068 => BitVec.ofNat 32 (latTx (h.macMode m) + latRx (h.macMode m) * 65536)
  | _ => h.seen (macReg m off)

/-- A fabric write to a MAC's page. EN is rejected where the family of datagrams is not answered. (log 82: DEDUCED) -/
def Hub.macWrite (h : Hub) (m off : Nat) (v : Word) : Hub :=
  let was := h.bit (macReg m 0) 0
  let h1 := h.putReg (macErr m) 0 (macReg m off) was anyField v
  if off ≠ 0 then h1
  else if v.getLsbD 0 && !was then
    (if h1.bit (macReg m 0x14) (h1.fld (macReg m 0x44) 0 1) then h1 else (h1.setBit (macReg m 0) 0 false).flag (macErr m) 0 0)
  else if was && !v.getLsbD 0 then h1.linkDown m
  else h1

/-- What a fabric read of the common registers gives. -/
def Hub.ptpRead (h : Hub) (off : Nat) : Word :=
  let p := h.ptp
  match off with
  | 0x00C => BitVec.ofNat 32 p.state
  | 0x010 => p.offset
  | 0x014 => p.mld
  | 0x028 => h.seen 0xF7028 ||| BitVec.ofNat 32 (p.busy.toNat * 2 ^ 16 + p.nophy.toNat * 2 ^ 17)
  | _ => h.seen (0xF7000 + off)

/-- A fabric write to the common registers. -/
def Hub.ptpWrite (h : Hub) (off : Nat) (v : Word) : Hub :=
  match off with
  | 0x004 => h.ptpEnable (v.getLsbD 0)
  | 0x024 => if v.getLsbD 31 then h.mdioGo v else h.putReg ptpErr 0 0xF7024 false anyField v
  | 0x028 => if h.ptp.busy then h.flag ptpErr 2 0 else h.putReg ptpErr 0 0xF7028 false anyField v
  | _ => h.putReg ptpErr 0 (0xF7000 + off) h.ptpOn anyField v

end Sys2Proof.Machine
end

