-- ==== Sys2Proof/Machine/Security.lean ====
section
/-! DEFINITION. Lifecycle and debug states, the key store, anti-rollback and blocked regions (R376 to R394). OTP that the key store backs is
kept in storage at its own addresses. -/

namespace Sys2Proof.Machine

/-- SEC_ERR (R394). -/
def secErr : ErrReg := ⟨0x11007C, 4, 0, 0⟩

/-- Security set. -/
def Hub.setSec (h : Hub) (x : Sec) : Hub := { h with sec := x }

/-- An access is refused under R390: BLOCKED, with the address while SEC_ERR reads zero. -/
def Hub.refuse (h : Hub) (addr : Nat) : Hub :=
  (if h.reg 0x11007C = 0 then h.setReg 0x110020 (BitVec.ofNat 32 addr) else h).flag secErr 2 0

/-! ### The key store (R379, R380) -/

/-- Places in the key store: KEY_HASHk, KEY_REVOKE, the other hashes, IMG_KEY and the anti-rollback slots. -/
def hashOff (k : Nat) : Nat := 32 * k
def dbgHashOff : Nat := 0x0A0
def taskHashOff : Nat := 0x0C0
def imgKeyOff : Nat := 0x100
def arbOff (i : Nat) : Nat := 0x200 + 8 * i

/-- A number held in the key store. -/
def State.keyNat (s : State) (off n : Nat) : Nat := ofBytes (s.load (keyBase + off) n)

/-- KEY_REVOKE, and whether a hash is written (R379). -/
def State.revoked (s : State) : Nat := s.keyNat 0x080 4 % 16
def State.hashWritten (s : State) (off : Nat) : Bool := s.keyNat off 32 != 0

/-- Bits of the word at an offset that OTP holds and a write can program (R379, R380). -/
def keyMask (off : Nat) : Word :=
  if off < 0x080 ∨ (0x0A0 ≤ off ∧ off < 0x0E0) ∨ (0x100 ≤ off ∧ off < 0x120) ∨ (0x200 ≤ off ∧ off < 0x280) then 0xFFFFFFFF
  else if off = 0x080 then 0xF
  else 0

/-- Word i of the lifecycle words, whose coding the spec leaves open; none is written in BLANK. (log 11: DESIGN CHOICE) -/
def Hub.lifecycleWord (h : Hub) (i : Nat) : Word := if h.lc = 0 then 0 else Config.reading 1 (4 * h.lc.toNat + i)

/-- The region the Col pair alone reaches in FIELD and RETURN, as far as the fabric has addresses for it (R390). -/
def Hub.blocked (h : Hub) (addr : Nat) : Bool := decide (2 ≤ h.lc.toNat ∧ keyBase ≤ addr ∧ addr < keyBase + 0x8000)

/-- A fabric read of the key store. -/
def State.keyRead (s : State) (off : Nat) : Word :=
  if 0x100 ≤ off ∧ off < 0x120 then 0
  else if 0x300 ≤ off ∧ off < 0x310 then s.hub.lifecycleWord ((off - 0x300) / 4)
  else BitVec.ofNat 32 (s.keyNat off 4) &&& keyMask off

/-- A write to the key store: programmed in BLANK, bits written 1 becoming 1, else discarded. (log 81: DEDUCED) -/
def State.keyWrite (s : State) (off : Nat) (v : Word) : State :=
  if s.hub.lc ≠ 0 ∨ (0x300 ≤ off ∧ off < 0x310) then s.mapHub (fun h => h.flag secErr 3 0)
  else s.store (keyBase + off) (bytesOf 4 ((BitVec.ofNat 32 (s.keyNat off 4) ||| (v &&& keyMask off)).toNat))

/-- KEY_STORE_WRITE. -/
def execKeyStoreWrite (by_ : Initiator) (addr : Nat) (val : Word) (s : State) : Host.Outcome State Fault Refusal :=
  let off := (addr - keyBase) / 4 * 4
  if addr < keyBase ∨ keyBase + 0x8000 ≤ addr then .next s
  else if s.hub.blocked addr ∧ by_ ≠ .col then .next (s.mapHub (fun h => h.refuse addr)).settle
  else .next (s.keyWrite off val).settle

/-! ### Anti-rollback (R383) -/

/-- Value of slot i, and whether it is used. -/
def State.arbSlot (s : State) (i : Nat) : Nat := s.keyNat (arbOff i) 8
def State.arbUsed (s : State) (i : Nat) : Bool := s.arbSlot i != 0 || s.hub.sec.arbBad.getLsbD i

/-- The counter: the highest-numbered slot whose check bits agree. -/
def State.arbCounter (s : State) : Nat :=
  (List.range 16).foldl (fun v i => if s.arbSlot i != 0 && !s.hub.sec.arbBad.getLsbD i then s.arbSlot i else v) 0

/-- ARB written to the free slots in turn until one reads back, or none is left. -/
def State.arbWrite : List Nat → List Bool → Nat → State → State
  | [], _, _, s => s.mapHub (fun h => (h.setSec { h.sec with arbFull := true }).health 0x61 0 0x85 16)
  | i :: rest, good, v, s =>
    match good with
    | false :: more =>
      State.arbWrite rest more v (s.mapHub (fun h =>
        (h.setSec { h.sec with arbBad := h.sec.arbBad ||| BitVec.ofNat 16 (2 ^ i) }).flag secErr 3 0))
    | _ => s.store (keyBase + arbOff i) (bytesOf 8 v)

/-- ARB_UPDATE: once after a boot in FIELD or RETURN whose image has the higher count; readsBack tells each OTP write's outcome. -/
def State.arbUpdate (s : State) (good : List Bool) : State :=
  match s.hub.sec.image with
  | none => s
  | some im =>
    if !s.hub.mbonik || !s.hub.sec.arbDue || im.arb.toNat ≤ s.arbCounter then s.mapHub (fun h => h.setSec { h.sec with arbDue := false })
    else
      let s1 := State.arbWrite ((List.range 16).filter (fun i => !s.arbUsed i)) good im.arb.toNat s
      let s2 := if im.revoke then s1.store (keyBase + 0x080) (bytesOf 4 (s1.keyNat 0x080 4 ||| (2 ^ im.slot - 1))) else s1
      s2.mapHub (fun h => h.setSec { h.sec with arbDue := false })

def execArbUpdate (readsBack : List Bool) (s : State) : Host.Outcome State Fault Refusal := .next (s.arbUpdate readsBack).settle

/-! ### Debug sessions (R386, R389) -/

/-- An engine in DEBUG returns to the state it left, and its breakpoints are cleared. -/
def Engine.undebug (x : Engine) : Engine := { x with st := if x.st = .debug then x.back else x.st, breaks := [] }

/-- A session ends: engines in DEBUG go on, the debug state is CLOSED, and a DBGACC in force issues no later access (R412). -/
def Hub.endSession (h : Hub) : Hub :=
  if h.sec.dbg ≠ 1 then h
  else
    let h1 := (h.engines.foldl (fun g e => g.setEng e.1 e.2.undebug) h).setSec { h.sec with dbg := 0 }
    { h1 with mbonik := h1.mbonik || (h.eng 72).st == .debug, tap := { h1.tap with ended := h1.tap.ended || h1.tap.ir == 0x10 } }

/-! ### Registers (R394) -/

/-- SEC_STATUS. -/
def State.secStatus (s : State) : Word :=
  let x := s.hub.sec
  BitVec.ofNat 32 (s.hub.lc.toNat + x.dbg.toNat * 2 ^ 2 + (x.pend.getD 0).toNat * 2 ^ 4 + x.pend.isSome.toNat * 2 ^ 6
    + (x.image.any (fun i => i.enc)).toNat * 2 ^ 7 + ((x.image.map (fun i => i.slot)).getD 0) * 2 ^ 8 + s.revoked * 2 ^ 10
    + x.arbFull.toNat * 2 ^ 14 + x.lockout.toNat * 2 ^ 15 + x.fails * 2 ^ 16)

/-- What a fabric read of the security registers gives, and the hub after it. -/
def State.secRead (s : State) (off : Nat) : Word × Hub :=
  let h := s.hub
  match off with
  | 0x000 => (s.secStatus, h)
  | 0x008 => (BitVec.ofNat 32 s.arbCounter, h.copyLow 0x110008 (BitVec.ofNat 128 s.arbCounter))
  | 0x00C => (h.copied 0x110008 32, h)
  | 0x010 => (Config.uniqueId.extractLsb' 0 32, h)
  | 0x014 => (Config.uniqueId.extractLsb' 32 32, h)
  | 0x018 => (Config.uniqueId.extractLsb' 64 32, h)
  | 0x01C => (Config.uniqueId.extractLsb' 96 32, h)
  | _ => (h.seen (0x110000 + off), h)

/-- A fabric write to the security registers. -/
def Hub.secWrite (h : Hub) (off : Nat) (v : Word) : Hub := h.putReg secErr 0 (0x110000 + off) false anyField v

end Sys2Proof.Machine
end

