-- ==== Sys2Proof/Machine/Power.lean ====
section
/-! DEFINITION. The power governor (R306 to R317): the target, the wakes and holds, entry to a deeper state and exit to a shallower one. -/

namespace Sys2Proof.Machine

/-- PWR_ERR (R317). -/
def pwrErr : ErrReg := ⟨0x1017C, 2, 0, 0⟩

/-- The governor set. -/
def Hub.setPwr (h : Hub) (p : Power) : Hub := { h with pwr := p }

/-! ### The target (R307, R308, R311) -/

/-- The shallowest ceiling of the holds in force (R311). -/
def Hub.holdCeil (h : Hub) : Nat := h.pwr.holds.foldl (fun c x => min c x.1) 4

/-- The ceiling: MAX, the holds, and MEADOW while EXTEST or CLAMP is in force (R307, R411). -/
def Hub.ceiling (h : Hub) : Nat :=
  min (min (h.fld 0x10100 16 3) h.holdCeil) (if h.tap.ir = 0x00 ∨ h.tap.ir = 0x03 then 1 else 4)

/-- Exit latency of a state in us (R306). -/
def exitLatency (st : Nat) : Nat :=
  match st with
  | 0 => 0
  | 1 => 2
  | 2 => 60
  | 3 => 600
  | _ => 4000

/-- Active streams: ARMED, RUNNING or WAITING. -/
def Hub.activeSids (h : Hub) : List Nat :=
  h.liveSids.filter (fun s => (h.strm s).state == .armed || (h.strm s).state == .running || (h.strm s).state == .waiting)

/-- The streams let the hub enter a state: each is covered, and the tasks of the last 10 epochs of those that would stay RUNNING fit (R308). -/
def Hub.coversStreams (h : Hub) (st : Nat) : Bool :=
  let stays (sid : Nat) : Bool := (h.strm sid).state == .running && h.streamCovered st sid
  let sum := h.pwr.loads.foldl (fun a l => l.foldl (fun n w => if stays w.1 then n + w.2 else n) a) 0
  h.activeSids.all (fun s => h.streamCovered st s) && (match st with
    | 2 => decide (sum ≤ 14400000)
    | 3 => decide (sum ≤ 450000)
    | _ => true)

/-- The enabled recognisers let it. -/
def Hub.coversRecs (h : Hub) (st : Nat) : Bool :=
  match st with
  | 3 => (List.range 128).all (fun r => r < 16 || !h.bit (recReg r 0) 0)
  | 4 => (List.range 128).all (fun r => !h.bit (recReg r 0) 0)
  | _ => true

/-- The first test that a state fails, as BLOCK codes it, 0 if none. -/
def Hub.blockOf (h : Hub) (st : Nat) : Nat :=
  let shed := h.bit 0x10100 20
  if h.fld 0x10100 0 16 < exitLatency st then 1
  else if h.ceiling < st then 2
  else if !shed && !h.coversStreams st then 3
  else if !shed && !h.coversRecs st then 4
  else if st = 4 ∧ h.fld 0x30180 0 8 ≠ 0 then 5
  else 0

/-- The deepest allowed state, reached in steps, and why the next is not (R307). -/
def Hub.governFrom (h : Hub) : List Nat → Nat → Nat × Nat
  | [], t => (t, 0)
  | st :: rest, t => if h.blockOf st = 0 then h.governFrom rest st else (t, h.blockOf st)
def Hub.governed (h : Hub) : Nat × Nat := h.governFrom [1, 2, 3, 4] 0

/-- GOVERNOR_EVALUATE: without Mbonik nothing is evaluated. An entry whose state is no longer the target ends (R307, R314). -/
def Hub.governEvaluate (h : Hub) : Hub :=
  if !h.mbonik then h else
  let p := h.pwr
  let (t, b) := h.governed
  let ended := p.entering && t != p.target
  let h1 := h.setPwr { p with target := t, block := BitVec.ofNat 3 b, entering := p.entering && !ended,
                              since := if p.state < t then (if t = p.target then p.since.orElse (fun _ => some h.now) else some h.now) else none }
  if ended then h1.bump 0x1011C 16 8 1 else h1

def execGovernorEvaluate (s : State) : Host.Outcome State Fault Refusal := s.run Hub.governEvaluate

/-- An evaluation would change something. -/
def Hub.governDue (h : Hub) : Bool :=
  h.mbonik && (h.governed.1 != h.pwr.target || BitVec.ofNat 3 h.governed.2 != h.pwr.block
    || (h.pwr.since.isNone && decide (h.pwr.state < h.pwr.target)))

/-! ### Wakes (R309 to R311) -/

/-- WAKE_PIN: the edge chosen by POL, on a pin that wakes. -/
def Hub.wakePin (h : Hub) (n : Nat) (rise : Bool) : Hub :=
  if n < 4 ∧ h.bit 0x1010C n ∧ h.bit 0x1010C (4 + n) ≠ rise ∧ !h.deaf rise then h.wakeBy n h.wakeCeil else h

def execWakePin (n : Nat) (rise : Bool) (s : State) : Host.Outcome State Fault Refusal := s.run (fun h => h.wakePin n rise)

/-- HOST_LINK_WAKE. (log 91: DEDUCED) -/
def Hub.hostWake (h : Hub) : Hub := if h.pwr.state ≥ 3 ∧ h.bit 0x1010C 9 then h.wakeBy 5 h.wakeCeil else h

def execHostLinkWake (s : State) : Host.Outcome State Fault Refusal := s.run Hub.hostWake

/-- The alarm's instant has come. -/
def Hub.alarmDue (h : Hub) : Bool := h.bit 0x1010C 10 && !before h.ts (h.reg 0x10110)

/-- ALARM clears when it fires. -/
def Hub.alarm (h : Hub) : Hub := if h.alarmDue then (h.setBit 0x1010C 10 false).wakeBy 6 h.wakeCeil else h

def execAlarm (s : State) : Host.Outcome State Fault Refusal := s.run Hub.alarm

/-- COUNT edges on the masked inputs have fallen within WINDOW_MS (R110). -/
def Hub.angWakeDue (h : Hub) : Bool :=
  let n := h.fld 0x30180 8 8
  h.pwr.state == 3 && h.fld 0x30180 0 8 != 0 && decide (n ≤ h.ang.wakeEdges.length)
    && (match h.ang.wakeEdges.head?, h.ang.wakeEdges[n - 1]? with
      | some a, some b => decide (a ≤ b + h.fld 0x30180 16 16 * 64000000)
      | _, _ => false)

/-- ANG_WAKE: the counted edges are used up. -/
def Hub.angWake (h : Hub) : Hub :=
  if h.angWakeDue then (h.setAng { h.ang with wakeEdges := [] }).wakeBy 7 h.wakeCeil else h

def execAngWake (s : State) : Host.Outcome State Fault Refusal := s.run Hub.angWake

/-- WAKE_HOLD_EXPIRE: holds that have lasted WAKE_HOLD_MS end. -/
def Hub.holdExpire (h : Hub) : Hub := h.setPwr { h.pwr with holds := h.pwr.holds.filter (fun x => decide (h.now < x.2)) }

def execWakeHoldExpire (s : State) : Host.Outcome State Fault Refusal := s.run Hub.holdExpire

/-! ### Status -/

/-- BLOCK as it reads: 6 while the dwell runs (R317). -/
def Hub.blockRead (h : Hub) : Nat := if h.pwr.state < h.pwr.target ∧ !h.pwr.entering then 6 else h.pwr.block.toNat

/-- PWR_STATUS. -/
def Hub.pwrStatus (h : Hub) : Word :=
  BitVec.ofNat 32 (h.pwr.state + h.pwr.target * 2 ^ 4 + h.ceiling * 2 ^ 8 + h.blockRead * 2 ^ 12 + h.pwr.entering.toNat * 2 ^ 15)

/-- What HEALTHRD reads of the hub but for RST_STATUS (R415): BOOT_STATUS, SEC_STATUS, AG_STATUS, PWR_STATUS, GENERATION, RP_OTP and
READY. -/
def State.healthWords (s : State) : List Word :=
  [s.hub.reg 0x1006C, s.secStatus, s.hub.agStatus, s.hub.pwrStatus, s.hub.lay.gen, s.hub.rpOtp, BitVec.ofNat 32 s.hub.hl.rdySeen.toNat]

/-! ### Entry (R313) -/

/-- An entry under way has waited TIMEOUT_MS for the target frame of port n (R176). -/
def Hub.targetOver (h : Hub) (n : Nat) : Bool := h.pwr.entering && decide (h.pwr.enterAt + h.fld (twReg n 4) 8 6 * 64000000 ≤ h.now)

/-- What entry to a state waits for: streams in DRAINING, and deeper than MEADOW votes, accepted packets, transactions on ports it turns off and target frames, MDIO,
and what a MAC still has to send (steps 1 and 2; R167, R193, R291, R308, R324, R359, R373). (log 72: DEDUCED) -/
def Hub.entryWaits (h : Hub) (st : Nat) : Bool :=
  h.liveSids.any (fun s => (h.strm s).state == .draining)
  || st ≥ 2 &&
    ([0, 1, 2, 3].any (fun k => (h.shd k).phase == 3)
      || h.queues.any (fun q => q.2.active.isSome && h.portOn h.pwr.state q.1 && !h.portOn st q.1)
      || h.ptp.busy
      || [0, 1].any (fun m => (h.mac m).link && (!(h.mac m).frames.isEmpty || (h.mac m).dg.isSome))
      || (st ≥ 3 && (!h.hl.accepted.isEmpty || h.tws.any (fun t => t.2.tgt.isSome && !h.targetOver t.1))))

/-- Step 5: streams whose home stops lose it, and what waits in a stopped engine's queue is dispatched anew; scheduling is STATIC. (log 73: DEDUCED) -/
def Hub.closeEngines (h : Hub) (st : Nat) : Hub :=
  let left := (h.setPwr { h.pwr with state := st }).openEngines
  let h0 := if h.rp.stealing then ({ h with rp := { h.rp with stealing := false } }).layoutChange else h
  let h1 := h0.liveSids.foldl (fun (g : Hub) sid =>
    if (g.strm sid).home.any (fun e => !left.contains e) then g.setStrm sid { g.strm sid with home := none } else g) h0
  (h1.engines.filter (fun e => e.1 < 72 && !left.contains e.1 && !(e.2.again ++ e.2.queue).isEmpty)).foldl (fun (g : Hub) e =>
    let again := ((e.2.again ++ e.2.queue).filter (fun d => !d.third)).foldl (fun (l : List Flight) (d : DispatchEntry) => markFlight d.sid d.seq (fun f => { f with stage := .toTask d.rerun }) l)
      g.flight
    ({ g with flight := again }).setEng e.1 { e.2 with queue := [], again := [] }) h1

/-- A recogniser stops with the power state, and its windows are abandoned (R208, R215). Every COMBINE that uses it has a higher index
and stops with it. (log 75: DEDUCED) -/
def Hub.recStop (h : Hub) (r : Nat) : Hub :=
  let x := h.rcg r
  (h.bump (recReg r 0x3C) 24 8 (x.opened.isSome.toNat + x.settling.isSome.toNat)).setRcg r
    { x with opened := none, settling := none, out := false }

/-- A ring in a bank that is not retained gives up its contents (R235). -/
def Hub.ringGiveUp (h : Hub) (n : Nat) : Hub :=
  let r := h.ring n
  (h.bump (ringReg n 0x28) 16 16 r.fill).setRing n { r with rd := r.wr, dates := [] }

/-- The angle domains go out of sync (R94, R101). -/
def Hub.anglesOut (h : Hub) : Hub :=
  let h1 := match h.ang.crank.state with
    | .sync360 => h.crankTo .lost 7
    | .sync720 => h.crankTo .lost 7
    | _ => h
  (List.range 4).foldl Hub.distSearch h1

/-- Step 6, for HOLLOW and BASIN: queues settle, recognisers stop, and angle domains go out of sync, whose SYNC records are then stored. -/
def Hub.deepStep (h : Hub) (st : Nat) : Hub :=
  let h1 := h.eqs.foldl (fun (g : Hub) q => g.setEq q.1 { q.2 with items := q.2.items.map (fun i => { i with ripe := true }) }) h
  let h2 := ((List.range 128).filter (fun r => h1.bit (recReg r 0) 0 && (st == 4 || decide (16 ≤ r)))).foldl Hub.recStop h1
  h2.anglesOut

/-- The rest of step 6: rings, the debug session, target frames that outlasted the wait (R176), and the Col pair. -/
def Hub.deepRest (h3 : Hub) : Hub :=
  let h4 := ((List.range 128).filter (fun n => h3.ringOn n && !h3.ringRetained n)).foldl Hub.ringGiveUp h3
  let h5 := (h4.tws.filter (fun t => t.2.tgt.isSome)).foldl (fun (g : Hub) t => g.setTwt t.1 { g.twt t.1 with tgt := none }) h4.endSession
  { h5 with mbonik := false, sec := { h5.sec with nonce := none } }

/-- Storage of the banks that are not retained is lost. (log 2: DESIGN CHOICE) -/
def State.loseBanks (s : State) : State :=
  let lost (a : Nat) : Bool :=
    decide (sramBase ≤ a ∧ a < sramBase + 0x1000000) &&
      (!s.hub.bit 0x10108 (16 + (a - sramBase) / 0x100000) || s.hub.bankOut.getLsbD ((a - sramBase) / 0x100000))
  { s with mem := s.mem.filter (fun c => !lost c.1) }

/-- The dwells of self-repair end (R291). -/
def State.endDwells (s : State) : State := [0, 1, 2, 3].foldl State.endDwell s

/-- The ports that a state does not run turn off: what is queued completes with NOREPLY, held triggers go, and probes are void (R193). -/
def Hub.portOff (h : Hub) (p : Nat) : Hub :=
  let mine := (List.range 128).filter (fun i => h.txPort i == p && ((h.txe i).queued || (h.txe i).held.isSome))
  let h1 := mine.foldl (fun (g : Hub) i => g.setTxe i { g.txe i with queued := false, held := none, spaced := false }) (h.setPq p { h.pq p with waiting := [] })
  let h2 := ((List.range 64).filter (fun j => h.probePort j == some p)).foldl (fun (g : Hub) j =>
    g.setPrb j { g.prb j with queued := false, waiting := false }) h1
  (mine.filter (fun i => (h.txe i).queued)).foldl (fun (g : Hub) i => g.complete i noReply) h2
def Hub.portsOff (h : Hub) (st : Nat) : Hub :=
  let old := h.pwr.state
  let h1 := ((List.range 24).filter (fun p => h.portOn old p && !h.portOn st p)).foldl Hub.portOff (h.setPwr { h.pwr with state := st })
  h1.setPwr { h1.pwr with state := old }

/-- Entry to a state deeper than MEADOW, its SID 0 records stored at their steps (R313). (log 72: DEDUCED) -/
def State.enterDeep (s : State) (st : Nat) : State :=
  let old := s.hub.pwr.state
  let s1 := (s.endDwells.mapHub (fun h =>
    let h1 := h.setPwr { h.pwr with entering := true }
    let h2 := (h1.activeSids.filter (fun sid => !h1.streamCovered st sid)).foldl (fun g sid => g.suspend sid 12) h1
    let h3 := if old < 2 then ([0, 1].foldl Hub.linkDown h2.haltGroups) else h2
    (h3.portsOff st).closeEngines st)).settle
  let s2 := if st ≥ 3 ∧ old < 3 then ((s1.mapHub (fun h => h.deepStep st)).settle.mapHub Hub.deepRest).settle else s1
  let s3 := if st ≥ 3 then
      let t := { s2 with hub := { s2.hub with tap := { s2.hub.tap with copy := some s2.healthWords } } }
      t.loseBanks.mapHub (fun h =>
        (h.setPwr { h.pwr with dropped := min (h.fld 0x10104 8 3) h.age.plan, wraps0 := h.tb.wraps }).avsDrive)
    else s2
  s3.mapHub (fun h =>
    let h1 := if st = 4 then h.setTb { h.tb with lock := false, onCrystal := true } else h
    let h2 := h1.setPwr { h1.pwr with state := st, entering := false, since := none }
    if st ≥ 3 then h2.bump 0x1011C 0 16 1 else h2)

/-- The target has been deeper than the state for ENTRY_MS without a break (R307). -/
def Hub.entryDue (h : Hub) : Bool :=
  h.mbonik && decide (h.pwr.state < h.pwr.target) && (match h.pwr.since with
    | none => false
    | some t => decide (t + h.fld 0x10104 0 8 * 64000000 ≤ h.now))

/-- POWER_ENTRY: begins, and is complete once nothing is waited for. Entry to MEADOW is step 9 alone, which streams in DRAINING delay too
(R308, R313). (log 72: DEDUCED) -/
def State.powerEntry (s : State) : State :=
  let h := s.hub
  if !h.entryDue then s
  else if h.pwr.target = 1 then
    if h.entryWaits 1 then s else s.mapHub (fun g => g.setPwr { g.pwr with state := 1, since := none, entering := false })
  else if h.entryWaits h.pwr.target then s.mapHub (fun g => g.setPwr { g.pwr with entering := true, enterAt := if g.pwr.entering then g.pwr.enterAt else g.now })
  else s.enterDeep h.pwr.target

def execPowerEntry (s : State) : Host.Outcome State Fault Refusal := .next s.powerEntry.settle

/-! ### Exit (R302, R312, R315) -/

/-- The state an exit leads to: the governor's target, or without Mbonik the ceiling of the holds (R307, R311). -/
def Hub.exitTo (h : Hub) : Option Nat :=
  let t := if h.mbonik then h.pwr.target else h.holdCeil
  if t < h.pwr.state then some t else none

/-- Schedule entries at the return: a TIME entry that TS passed since the entry sets DEFER; where TS has wrapped since, any other is live in the new
cycle (R104, R107, R108). (log 31: DEDUCED) -/
def Hub.asesBack (h : Hub) : Hub :=
  let p := h.tb.acc.toNat / 2 ^ 16
  let l := tval p h.ang.lastPos 0
  let laps := (h.tb.wraps - h.pwr.wraps0).toNat
  let passed (x : Nat) : Bool := if laps = 0 then decide (l < x ∧ x ≤ p) else if laps = 1 then decide (l < x ∨ x ≤ p) else true
  let h1 := h.changeAses 0 (fun i x =>
    if passed (h.asePos i) then { x with defer := true } else if laps = 0 then x else { x with defer := false, fired := false })
  h1.setAng { h1.ang with lastPos := tput h1.ang.lastPos 0 p }

/-- Recognisers that had stopped come back as at EN, and held events are posted in ascending order (R215). (log 75: DEDUCED) -/
def Hub.recsBack (h : Hub) (old : Nat) : Hub :=
  let h1 := ((List.range 128).filter (fun r => h.bit (recReg r 0) 0 && (old == 4 || decide (16 ≤ r)))).foldl Hub.recStart h
  h1.recs.foldl (fun (g : Hub) e => match e.2.held with
    | none => g
    | some (q, x) => (g.insert q x).setRcg e.1 { e.2 with held := none }) h1

/-- EPOCH is mended on the first return with EPOCH_VALID at 0, from the last EPOCH that was valid (R315). (log 74: DEDUCED) -/
def Hub.mendEpoch (h : Hub) : Hub :=
  if h.tb.epochValid || h.tb.armed || h.tb.epochTotal == 0 || h.tb.staleWraps == 0 then h else
  let (s, ns) := splitNs (h.tb.epochTotal + 2 ^ 32 * h.tb.staleWraps)
  (h.setNext s ns).tbRepair

/-- Units of the new state run again after HOLLOW or BASIN. -/
def Hub.leaveDeep (h : Hub) (old : Nat) : Hub :=
  let col := (h.eng 72).st.runs
  let h1 := ({ h with mbonik := col, wdt := 0, tap := { h.tap with copy := none } } : Hub).layoutResume
  let h2 := if old = 4 then h1.setTb { h1.tb with lock := true, onCrystal := false, beat := 0 } else h1
  let h3 := if h2.ang.crank.state = .lost ∧ h2.ang.crank.loss = 7 then h2.crankTo .search 0 else h2
  let h4 := h3.setCrank { h3.ang.crank with last := none, per := none, perPrev := none, pred := none, rise := none, held := none }
  let h5 := ((h4.asesBack).recsBack old).setAge { h4.age with since := h4.now, fresh := false, guarded := false }
  let h6 := (h5.pwr.health.foldl Hub.postHealth h5).setPwr { h5.pwr with health := [] }
  if col then h6.mendEpoch else h6

/-- POWER_EXIT: from HOLLOW or BASIN the voltage is restored first, code by code; then the units of the new state run. -/
def State.powerExit (s : State) : State :=
  let h := s.hub
  let old := h.pwr.state
  match h.exitTo with
  | none => s
  | some st =>
    if old ≥ 3 ∧ (h.pwr.dropped ≠ 0 ∨ (h.age.vid ≠ h.age.plan ∧ !h.age.fault) ∨ h.age.avs ≠ 0) then
      s.mapHub (fun g => (g.setPwr { g.pwr with dropped := 0 }).avsDrive)
    else
      s.mapHub (fun g =>
        let g1 := g.setPwr { g.pwr with state := st, entering := false, since := none }
        let g2 := if old ≥ 3 then g1.leaveDeep old else g1
        let g3 := if old ≥ 2 ∧ st ≤ 1 ∧ g2.tb.lock then g2.restartGroups else g2
        (g3.liveSids.filter (fun sid => (g3.strm sid).power && g3.streamCovered st sid)).foldl (fun k sid => k.resume sid 12) g3)

def execPowerExit (s : State) : Host.Outcome State Fault Refusal := .next s.powerExit.settle

/-! ### Registers (R317) -/

/-- What a fabric read of the power registers gives. -/
def Hub.pwrRead (h : Hub) (off : Nat) : Word := if off = 0x114 then h.pwrStatus else h.seen (0x10000 + off)

/-- A fabric write to the power registers. -/
def Hub.pwrWrite (h : Hub) (off : Nat) (v : Word) : Hub := h.putReg pwrErr 0 (0x10000 + off) false anyField v

end Sys2Proof.Machine
end

