-- ==== Sys2Proof/Machine/Probes.lean ====
section
/-! DEFINITION. Discovery (R195 to R199): probes, what they find, and the streams and transactions that wait on them. -/

namespace Sys2Proof.Machine

/-- METHOD and PORT of a probe. -/
def Hub.probeMethod (h : Hub) (j : Nat) : Nat := h.fld (prReg j 0) 1 3
def Hub.probeIndex (h : Hub) (j : Nat) : Nat := h.fld (prReg j 0) 4 6

/-- PORT is in range for METHOD, and SPID names no select code that SP0 reserves (R195). (log 85: DEDUCED) -/
def Hub.probeOk (h : Hub) (j : Nat) : Bool :=
  let n := h.probeIndex j
  match h.probeMethod j with
  | 0 => n < 8
  | 1 => n < 16 && !(n == 0 && h.fld (prReg j 4) 16 3 == 0)
  | 2 => n < 48
  | 3 => n < 8
  | 4 => n < 2
  | _ => false

/-- Streams whose source has gone wait, and those whose source is back run again (R66, R198). -/
def Hub.followProbes (h : Hub) : Hub :=
  h.liveSids.foldl (fun (g : Hub) sid =>
    let x := g.strm sid
    if g.sourceAbsent sid == x.detach then g else if x.detach then g.resume sid 8 else g.suspend sid 8) h

/-- Entries bound to probe j (R198). -/
def Hub.boundTo (h : Hub) (j : Nat) : List Nat := (List.range 128).filter (fun i => h.bindsTo i j)

/-- The active transaction of an entry whose target has gone: a frame not yet begun is not run (R158, R165). -/
def Hub.frameGone (h : Hub) (p : Nat) : Hub :=
  if p < 16 then
    let x := h.spt p
    match x.phase with
    | .wait => h.portEnd p 3
    | .frame => if h.now < x.fall then (h.setSpt p (x.unbegun h.now)).portEnd p 3 else h
    | _ => h
  else if (h.twt (p - 16)).phase = .wait then h.portEnd p 3 else h

/-- The queued transaction of an entry, and a trigger held beside it, complete with NOREPLY (R198). -/
def Hub.entryGone (h : Hub) (i : Nat) : Hub :=
  let x := h.txe i
  if x.active then h.frameGone (h.txPort i) else
  if !x.queued ∧ x.held.isNone then h else
  let p := h.txPort i
  let h1 := h.setPq p { h.pq p with waiting := (h.pq p).waiting.filter (fun t => t.src != .entry i) }
  let h2 := (h1.fedBy i).foldl (fun g s => g.missing s (x.queued.toNat + x.held.isSome.toNat)) h1
  let h3 := (h2.setTxe i { x with queued := false, held := none, spaced := false }).complete i noReply
  if x.queued ∧ x.held.isSome then h3.complete i noReply else h3

/-- A probe's state set, with the records and counts of R197; v is the identity read. -/
def Hub.probeHit (h : Hub) (j v : Nat) : Hub :=
  let x := h.prb j
  let h1 := h.setPrb j { x with state := .present, misses := 0 }
  if x.state = .present then h1
  else ((h1.bump (prReg j 0x18) 0 8 1).sysRecord 0x08 j (BitVec.ofNat 40 v)).followProbes

/-- A miss. (log 85: DEDUCED) -/
def Hub.probeMiss (h : Hub) (j : Nat) : Hub :=
  let x := h.prb j
  let n := satAdd 4 x.misses 1
  if x.state = .absent ∨ n < h.fld (prReg j 0) 12 4 then h.setPrb j { x with misses := n }
  else
    let h1 := h.setPrb j { x with misses := n, state := .absent }
    let h2 := if x.state = .present then (h1.bump (prReg j 0x18) 8 8 1).sysRecord 0x09 j (BitVec.ofNat 40 n) else h1
    ((h2.boundTo j).foldl Hub.entryGone h2).followProbes

/-- An identity that was read: a hit if it matches, else a miss that MISMATCH counts (R196). -/
def Hub.probeId (h : Hub) (j v : Nat) : Hub :=
  let h1 := h.setReg (prReg j 0x14) (BitVec.ofNat 32 v)
  if (BitVec.ofNat 32 v ^^^ h.reg (prReg j 0x8)) &&& h.reg (prReg j 0xC) = 0 then h1.probeHit j v
  else (h1.bump (prReg j 0x18) 16 16 1).probeMiss j

/-- A count that was made: a hit from least on. -/
def Hub.probeCount (h : Hub) (j n least : Nat) : Hub :=
  let h1 := h.setReg (prReg j 0x14) (BitVec.ofNat 32 n)
  if least ≤ n then h1.probeHit j n else h1.probeMiss j

/-- Transitions between neighbours of a list. -/
def transitions : List Bool → Nat
  | a :: b :: r => (a != b).toNat + transitions (b :: r)
  | _ => 0

/-- PROBE_RUN: the probe is judged, with the completion code and identity of its frame where it sends one (R196). (log 85: DEDUCED) -/
def Hub.probeRun (h : Hub) (j code : Nat) (id : Word) : Hub :=
  let x := h.prb j
  let h := h.setPrb j { x with result := none, seen := 0 }
  if !h.mbonik || !h.bit (prReg j 0) 0 then h else
  let n := h.probeIndex j
  match h.probeMethod j with
  | 2 =>
    if (h.grp (h.groupOf n)).on then h.probeCount j (transitions ((h.hsl n).line.take (min 1024 (h.hsl n).lineN))) 8 else h
  | 3 => h.probeCount j x.seen 1
  | 4 =>
    if h.pwr.state > 1 then h
    else if (h.mac n).link && decide (0 < x.seen) then h.probeId j x.gm.toNat
    else h.probeMiss j
  | _ => if code = 0 then h.probeId j id.toNat else if code = 2 then h else h.probeMiss j

def execProbeRun (j code : Nat) (id : Word) (s : State) : Host.Outcome State Fault Refusal :=
  s.run (fun h => if j < 64 then h.probeRun j code id else h)

/-- A period of probe j has passed: its frame is queued unless the last one is still under way, or it is ready to be judged (R196). (log 84: DEDUCED) -/
def Hub.probePeriod (h : Hub) (j : Nat) : Hub :=
  let x := h.prb j
  match h.probePort j with
  | none => h.setPrb j { x with result := some (0, 0) }
  | some p => if x.queued || x.waiting || !h.portOn h.pwr.state p then h else h.probeQueue j p

/-- A schedule epoch for the probes: periods are counted from EN, and without Mbonik no probe runs at their ends (R196). (log 84: DEDUCED) -/
def Hub.probeEpoch (h : Hub) : Hub :=
  ((List.range 64).filter (fun j => h.bit (prReg j 0) 0)).foldl (fun (g : Hub) j =>
    let x := g.prb j
    if x.epochs + 1 < g.fld (prReg j 0) 16 14 then g.setPrb j { x with epochs := x.epochs + 1 }
    else if g.mbonik then (g.setPrb j { x with epochs := 0 }).probePeriod j else g.setPrb j { x with epochs := 0, seen := 0 }) h

/-- PROBE_ENABLE (R195, R197). A frame of the probe that is under way stays. (log 84: DEDUCED) -/
def Hub.probeEnable (h : Hub) (j : Nat) (en : Bool) : Hub :=
  let x := h.prb j
  if en then
    if h.bit (prReg j 0) 0 then h
    else if h.probeOk j then (h.setBit (prReg j 0) 0 true).setPrb j { x with state := .unknown, misses := 0, epochs := 0, seen := 0, result := none }
    else h.flag schErr 0 (j + 0x80)
  else ((h.setBit (prReg j 0) 0 false).setPrb j { x with state := .off, result := none }).followProbes

def execProbeEnable (j : Nat) (en : Bool) (s : State) : Host.Outcome State Fault Refusal :=
  s.run (fun h => if j < 64 then h.probeEnable j en else h)

/-- PR_STATUS.STATE as a number. -/
def ProbeState.code : ProbeState → Nat
  | .off => 0
  | .unknown => 1
  | .present => 2
  | .absent => 3

/-- What a fabric read of a probe entry gives (R195). -/
def Hub.probeRead (h : Hub) (j off : Nat) : Word :=
  if off = 0x10 then BitVec.ofNat 32 ((h.prb j).state.code + (h.prb j).misses * 16) else h.seen (prReg j off)

/-- A fabric write to a probe entry: the LK fields of PR_CTRL are those EN is checked with. (log 119: DEDUCED) -/
def Hub.probeWrite (h : Hub) (j off : Nat) (v : Word) : Hub :=
  let on := h.bit (prReg j 0) 0
  if off ≠ 0 then h.putReg schErr (j + 0x80) (prReg j off) on anyField v
  else
    let h1 := (h.putReg schErr (j + 0x80) (prReg j 0) on anyField v).setBit (prReg j 0) 0 on
    if v.getLsbD 0 == on || (v.getLsbD 0 && decide (4 < bits v 1 3)) then h1 else h1.probeEnable j (v.getLsbD 0)

/-- What a fabric read of the scheduler's common registers gives (R194). -/
def Hub.schRead (h : Hub) (off : Nat) : Word :=
  match off with
  | 0xF004 => BitVec.ofNat 32 h.schPend.toNat
  | 0xF120 => setBits (h.seen 0x9F120) 0 8 h.ang.trgLevel.toNat
  | _ => h.seen (0x90000 + off)

/-- A fabric write to them (R187, R194). -/
def Hub.schWrite (h : Hub) (off : Nat) (v : Word) : Hub :=
  if off = 0xF000 then (if v.getLsbD 0 then h.schCommit else h)
  else
    let pin := (off - 0xF100) / 4
    h.putReg schErr 0 (0x90000 + off) (decide (0xF100 ≤ off ∧ off < 0xF120) && h.trgPinUsed pin) anyField v

end Sys2Proof.Machine
end

