-- ==== Sys2Proof/Machine/Clock.lean ====
section
/-! DEFINITION. Loss and return of the TIME clock (R26), the schedule epoch (R183) and what falls at it: delays of the clock groups (R82), the
table's gathering (R47), self-repair, the engine clock, and the probes. -/

namespace Sys2Proof.Machine

/-- REFCLK_LOSS: holdover begins (R26, R66, R94, R101). In BASIN TS does not run from REFCLK (R316). (log 87: DEDUCED) -/
def Hub.refclkLoss (h : Hub) : Hub :=
  if h.tb.holdover || h.tb.onCrystal then h else
  let h1 := h.liveSids.foldl (fun (g : Hub) sid => g.suspend sid 9) h.haltGroups
  let h2 := match h1.ang.crank.state with
    | .sync360 => h1.crankTo .lost 6
    | .sync720 => h1.crankTo .lost 6
    | _ => h1
  let h3 := [0, 1, 2, 3].foldl Hub.distSearch h2
  (h3.setTb { h3.tb with lock := false, holdover := true }).health 0x0002 0 0x80 1

def execRefclkLoss (s : State) : Host.Outcome State Fault Refusal := s.run Hub.refclkLoss

/-- TIME_PLL_LOCK: the phase of R84 is restored, and TIME ticks go on from the value holdover left (R26, R66, R115). (log 16: DESIGN CHOICE) -/
def Hub.timeLock (h : Hub) : Hub :=
  if !h.tb.holdover || h.supply.getLsbD 2 then h else
  let h1 := h.setTb { h.tb with lock := true, holdover := false, beat := 0 }
  let h2 := if h1.bankHOn then h1.restartGroups else h1
  (h2.liveSids.filter (fun sid => (h2.strm sid).clock)).foldl (fun (g : Hub) sid => g.resume sid 9) h2

def execTimePllLock (s : State) : Host.Outcome State Fault Refusal := s.run Hub.timeLock

/-! ### The 1 ms update of DELAY (R82) -/

/-- A calibration or tracking failure of group g: value is the signed difference, saturated at 0x7FFF either way, or none for no edges, which reads
0x8000 (R438). (log 86: DEDUCED) -/
def Hub.calFailed (h : Hub) (g : Nat) (value : Option Int) : Hub :=
  let v : Nat := match value with
    | none => 0x8000
    | some d => (max (-0x7FFF) (min 0x7FFF d) % 65536).toNat
  let t := h.tb
  let d := if t.calDone.getLsbD g then t.delay else tset 0 t.delay g (Config.typicalDelay g)
  ((h.setTb { t with calFail := t.calFail ||| BitVec.ofNat 4 (2 ^ g), delay := d }).flag tbErr 5 0).health 0x0002 g 0x82 v

/-- The average of an epoch throughout which group g ran is judged, and DELAY moves toward it by at most 1/16 ns. (log 86: DEDUCED) -/
def Hub.trackDelay (h : Hub) (g : Nat) : Hub :=
  let t := h.tb
  let d : Int := (tval 0 t.delay g).toNat
  match Config.roundTrip g t.measures with
  | none => h.calFailed g none
  | some r =>
    let avg : Int := (r : Int) - (tval 0 t.board g).toNat - (Config.receiverDelay g t.measures).toNat
    let diff := avg - d
    if diff.natAbs > 256 then h.calFailed g (some diff)
    else
      let step := if diff > 16 then 16 else if diff < -16 then -16 else diff
      h.setTb { t with calFail := t.calFail &&& ~~~ (BitVec.ofNat 4 (2 ^ g)), delay := tset 0 t.delay g (BitVec.ofInt 12 (d + step)) }

/-- The update for group g: the whole of a change of BOARD, or else the average. (log 86: DEDUCED) -/
def Hub.updateDelay (h : Hub) (g : Nat) : Hub :=
  let board : BitVec 12 := BitVec.ofNat 12 (h.fld (0x20050 + 4 * g) 0 12)
  let old := tval 0 h.tb.board g
  let h1 := if board ≠ old then
      h.setTb { h.tb with board := tset 0 h.tb.board g board, delay := tset 0 h.tb.delay g (tval 0 h.tb.delay g + old - board) }
    else if (h.grp g).whole then h.trackDelay g
    else h
  let x := h1.grp g
  if x.whole = x.on then h1 else h1.setGrp g { x with whole := x.on }

/-! ### The schedule epoch -/

/-- Cycles spent in tasks in the epoch that ends, by stream, summed over all engines, and a new count begun (R308). (log 71: DEDUCED) -/
def Hub.taskWork (h : Hub) : List (Nat × Nat) :=
  (List.range 72).foldl (fun (t : Tab Nat) e => (h.eng e).work.foldl (fun (l : Tab Nat) w => tset 0 l w.1 (tval 0 l w.1 + w.2)) t) []
def Hub.workAnew (h : Hub) : Hub := (h.engines.filter (fun e => !e.2.work.isEmpty)).foldl (fun (g : Hub) e => g.setEng e.1 { e.2 with work := [] }) h

/-- EPOCH sets in ENG_IRQ of every engine that is not RETIRED (R251, R258). -/
def Hub.epochIrq (h : Hub) : Hub :=
  (List.range 72).foldl (fun (g : Hub) e => if g.engGone e then g else g.setBit (engReg e 0x1C) 1 true) h

/-- SCHEDULE_EPOCH. None passes in BASIN (R183). (log 88: DEDUCED) -/
def State.scheduleEpoch (s : State) : State :=
  if s.hub.pwr.state = 4 then s else
  let s1 := s.mapHub (fun h =>
    let h1 := h.setTb { h.tb with epochs := h.tb.epochs + 1, epochDue := false }
    let h2 := [0, 1, 2, 3].foldl Hub.updateDelay h1.schApply
    let h3 := (h2.setTb { h2.tb with measures := h2.tb.measures + 1 }).layoutGather
    (h3.setPwr { h3.pwr with samples := 0, loads := keep 10 (h3.taskWork :: h3.pwr.loads) }).workAnew)
  (s1.repairEpoch (s1.hub.engClock * 1000)).mapHub (fun h => (if h.mbonik then h.clockStep else h).epochIrq.probeEpoch)

def execScheduleEpoch (s : State) : Host.Outcome State Fault Refusal := .next s.scheduleEpoch.settle

end Sys2Proof.Machine
end

