-- ==== Sys2Proof/Machine/HostLink.lean ====
section
/-! DEFINITION. Command packets and their transports (R318 to R336): the receiver, tags and replies, the host link, the two-wire target codes
and the UDP management port, IRQ_N; and frames received by a MAC (R357, R358, R363). -/

namespace Sys2Proof.Machine

/-- HL_ERR (R336). -/
def hlErr : ErrReg := ⟨0xC007C, 2, 0, 0⟩

/-- XP_COUNTS of a transport. -/
def xpA (t : Nat) : Nat := 0xC0100 + 8 * t
def xpB (t : Nat) : Nat := 0xC0104 + 8 * t

/-- Transport t, and it set. -/
def Hub.xp (h : Hub) (t : Nat) : Transport := tval Transport.init h.xps t
def Hub.setXp (h : Hub) (t : Nat) (x : Transport) : Hub := { h with xps := tset Transport.init h.xps t x }

/-- The host link set. -/
def Hub.setHl (h : Hub) (x : HostLink) : Hub := { h with hl := x }

/-! ### Packets (R318, R319) -/

/-- One byte into the CRC of R319, and the CRC of words. -/
def crc16Step (c : Half) : Nat → Half
  | 0 => c
  | n + 1 => crc16Step (if c.msb then (c <<< 1) ^^^ 0x1021 else c <<< 1) n
def crc16Byte (c : Half) (b : Byte) : Half := crc16Step (c ^^^ (b.setWidth 16 <<< 8)) 8
def crc16 (ws : List Half) : Half := ws.foldl (fun (c : Half) (w : Half) => crc16Byte (crc16Byte c ((w >>> 8).setWidth 8)) (w.setWidth 8)) 0xFFFF

/-- The high and low byte of a word. -/
def hiByte (w : Half) : Byte := (w >>> 8).setWidth 8
def loByte (w : Half) : Byte := w.setWidth 8

/-- A reply packet (R318). -/
def replyPacket (op status tag : Byte) (ws : List Half) : List Half :=
  let l := (op ++ status : Half) :: (tag ++ BitVec.ofNat 8 ws.length : Half) :: ws
  l ++ [crc16 l]

/-- Words from bytes, low byte first, with a byte left over; and bytes from words (R331). -/
def wordsOfBytes : List Byte → List Half × List Byte
  | a :: b :: r => let (ws, l) := wordsOfBytes r
                   ((b ++ a : Half) :: ws, l)
  | l => ([], l)
def bytesOfWords (ws : List Half) : List Byte := ws.flatMap (fun w => [loByte w, hiByte w])

/-! ### The receiver (R321 to R323, R335) -/

/-- The tag of a packet, and a kept reply for it on a transport. -/
def packetTag (p : List Half) : Byte := hiByte (p.getD 1 0)
def Transport.keptFor (x : Transport) (p : List Half) : Option (List Half) :=
  (x.kept.find? (fun k => k.1 == packetTag p && k.2.1 == p.getLastD 0 && !k.2.2.isEmpty)).map (fun k => k.2.2)

/-- A packet is discarded: counted, and noted for HUB_STATUS. (log 90: DEDUCED) -/
def Hub.packetLost (h : Hub) (t lsb : Nat) : Hub := (h.bump (xpA t) lsb 8 1).setXp t { h.xp t with disc := true }

/-- A whole packet is checked, and accepted, discarded, or answered again with a kept reply. -/
def Hub.packet (h : Hub) (t : Nat) (p : List Half) : Hub :=
  let x := h.xp t
  if crc16 p.dropLast ≠ p.getLastD 0 then h.packetLost t 0
  else
    match x.keptFor p, x.source with
    | some reply, some src => (h.bump (xpB t) 16 8 1).queueFrame src.2.2.2 (.reply (t - 9) reply)
    | _, _ =>
      if x.tags.length ≥ 16 then h.packetLost t 16
      else if x.tags.contains (packetTag p) then h.packetLost t 24
      else
        let h1 := (h.bump (xpB t) 24 8 1).setXp t { x with tags := x.tags ++ [packetTag p], heard := h.now,
                                                            kept := x.kept.filter (fun k => k.1 != packetTag p)
                                                                      ++ (if t < 9 then [] else [(packetTag p, p.getLastD 0, [])]) }
        h1.setHl { h1.hl with accepted := h1.hl.accepted ++ [{ t := t, words := p }], rdy := h1.hl.rdy && t != 0 }

/-- The receiver over words: the hub, and the words of an incomplete packet. The first argument bounds the words looked at. (log 90: DEDUCED) -/
def Hub.receive : Nat → Hub → Nat → List Half → Hub × List Half
  | 0, h, _, ws => (h, ws)
  | f + 1, h, t, ws =>
    match ws with
    | [] => (h, [])
    | w :: r =>
      if hiByte w = 0 then Hub.receive f (if loByte w = 0 then h else h.bump (xpB t) 0 8 1) t r
      else
        match r with
        | [] => (h, ws)
        | v :: r2 =>
          let n := (loByte v).toNat
          if n > 250 then Hub.receive f (h.bump (xpB t) 0 8 1) t r2
          else if ws.length < n + 3 then (h, ws)
          else Hub.receive f (h.packet t (ws.take (n + 3))) t (ws.drop (n + 3))

/-- Words reach the receiver of transport t behind what it holds. -/
def Hub.inbound (h : Hub) (t : Nat) (bs : List Byte) : Hub :=
  let (ws, odd) := wordsOfBytes ((h.xp t).inbuf ++ bs)
  let (h1, rest) := Hub.receive ws.length h t ws
  h1.setXp t { h1.xp t with inbuf := bytesOfWords rest ++ odd }

/-- An incomplete packet of transport t is discarded (R328, R331, R334). -/
def Hub.incomplete (h : Hub) (t : Nat) : Hub :=
  if (h.xp t).inbuf.isEmpty then h
  else
    let h1 := h.packetLost t 8
    h1.setXp t { h1.xp t with inbuf := [] }

/-- The host link takes words now: selected, served, and inbound (R326, R327, R329). -/
def HostLink.takes (x : HostLink) : Bool := x.sel && !x.ignored && x.writes

/-- A transport that can receive: the host link in a selection, a two-wire port's target, a UDP slot in use. -/
def Hub.receives (h : Hub) (t : Nat) : Bool :=
  if t = 0 then h.hl.takes && decide (h.pwr.state < 3)
  else if t ≤ 8 then h.hl.ready && h.bit (twReg (t - 1) 0) 4 && decide (h.pwr.state < 3)
  else t ≤ 12 && (h.xp t).source.isSome && h.bit 0xC0050 0

/-- PACKET_RECEIVE: words reach a transport's receiver. -/
def Hub.packetReceive (h : Hub) (t : Nat) (ws : List Half) : Hub := if h.receives t then h.inbound t (bytesOfWords ws) else h

def execPacketReceive (t : Nat) (words : List Half) (s : State) : Host.Outcome State Fault Refusal := s.run (fun h => h.packetReceive t words)

/-! ### Replies (R322, R335) -/

/-- A reply is formed whole, and waits. -/
def Hub.sendReply (h : Hub) (t : Nat) (ws : List Half) : Hub := h.setXp t { h.xp t with out := (h.xp t).out ++ [ws] }

/-- A tag whose OK reply is suppressed is free when its execution ends. -/
def Hub.freeTag (h : Hub) (t : Nat) (tag : Byte) : Hub :=
  h.setXp t { h.xp t with tags := (h.xp t).tags.erase tag, kept := (h.xp t).kept.filter (fun k => k.1 != tag) }

/-- The oldest reply of a transport has been taken: its tag is free. A UDP reply leaves in its own datagram, and is kept with the CRC word
of its request, which acceptance put beside the tag with no words. (log 89: DEDUCED) -/
def Hub.replyGone (h : Hub) (t : Nat) : Hub :=
  let x := h.xp t
  match x.out with
  | [] => h
  | r :: rest =>
    let y := { x with out := rest, tags := x.tags.erase (packetTag r), sent := 0 }
    match x.source with
    | none => h.setXp t y
    | some src =>
      let crc := ((x.kept.find? (fun k => k.1 == packetTag r)).map (fun k => k.2.1)).getD 0
      let others := x.kept.filter (fun k => k.1 != packetTag r)
      let done := others.filter (fun k => !k.2.2.isEmpty) ++ [(packetTag r, crc, r)]
      (h.setXp t { y with kept := others.filter (fun k => k.2.2.isEmpty) ++ done.drop (done.length - 16) }).queueFrame src.2.2.2 (.reply (t - 9) r)

/-- The reply of a transport can be taken now: in a selection that reads, or while the MAC that leads to its source sends. -/
def Hub.replyReady (h : Hub) (t : Nat) : Bool :=
  let x := h.xp t
  !x.out.isEmpty &&
    (if t = 0 then h.hl.sel && !h.hl.ignored && h.hl.reads && decide (h.pwr.state < 3)
     else if t ≤ 8 then decide (h.pwr.state < 3)
     else x.source.any (fun src => h.macOn src.2.2.2 && (h.mac src.2.2.2).link))

/-- REPLY_TAKEN. -/
def execReplyTaken (t : Nat) (s : State) : Host.Outcome State Fault Refusal :=
  s.run (fun h => if t ≤ 12 && h.replyReady t then h.replyGone t else h)

/-! ### The host link (R325 to R329) -/

/-- HL_SELECT: HL_CS_N falls; header is the first word of a four-lane selection. In HOLLOW and BASIN it wakes the hub, and its words are
lost; until READY they are discarded, and the selection is counted. (log 91: DEDUCED) -/
def Hub.hlSelect (h : Hub) (sckHigh : Bool) (header : Half) : Hub :=
  let quad := if (h.xp 0).out.isEmpty then h.bit 0xC0000 0 else h.hl.quad
  let y := { h.hl with sel := true, mode3 := sckHigh, quad := quad, ignored := true, writes := false, reads := false }
  if h.pwr.state ≥ 3 then (h.setHl y).hostWake
  else if !h.hl.ready then (h.setHl y).bump (xpB 0) 8 8 1
  else if !quad then h.setHl { y with ignored := false, writes := true, reads := true }
  else if header = 1 ∨ header = 2 then h.setHl { y with ignored := false, writes := header == 1, reads := header == 2 }
  else (h.setHl y).bump (xpB 0) 0 8 1

def execHlSelect (sckHigh : Bool) (header : Half) (s : State) : Host.Outcome State Fault Refusal := s.run (fun h => h.hlSelect sckHigh header)

/-- HL_DESELECT. -/
def Hub.hlDeselect (h : Hub) : Hub := (h.setHl { h.hl with sel := false }).incomplete 0

def execHlDeselect (s : State) : Host.Outcome State Fault Refusal := s.run Hub.hlDeselect

/-! ### IRQ_N (R330) -/

/-- IRQ_STATUS. -/
def Hub.irqSources (h : Hub) : Nat :=
  let any4 (a : Nat) : Bool := [0, 4, 8, 12].any (fun o => h.reg (a + o) != 0)
  let wake := h.fld 0x10118 0 9 &&& h.fld 0x10118 16 9
  let rpl := !(h.xp 0).out.isEmpty
  (any4 0x7F000).toNat + 2 * ((List.range 32).any (fun q => h.eqIrq q)).toNat + 4 * (any4 0xEF000).toNat + 8 * (wake != 0).toNat
    + 16 * ((rpl && h.bit 0xC0000 1) || (h.hl.rdy && h.bit 0xC0000 2)).toNat

/-! ### The two-wire transport (R172 to R175, R331 to R333) -/

/-- The target frame of port n that has reached a command code, reading or writing. -/
def Hub.targetFrame (h : Hub) (n code : Nat) (rd : Bool) : Option TargetFrame :=
  (h.twt n).tgt.filter (fun f => f.code == some (BitVec.ofNat 8 code) && f.rd == rd)

/-- A target frame ends with a STOP. -/
def Hub.targetEnd (h : Hub) (n : Nat) : Hub := (h.setTwt n { h.twt n with tgt := none, freeAt := h.now + h.tbuf n }).twRest n

/-- A read serves these bytes, and the PEC byte after them where the address asks for it; 0xFF follows (R164, R173). -/
def Hub.serveRead (h : Hub) (n : Nat) (f : TargetFrame) (bs : List Byte) : Hub :=
  let head : List Byte := [BitVec.ofNat 8 (f.first.toNat * 2), f.code.getD 0, BitVec.ofNat 8 (f.addr.toNat * 2 + 1)]
  let g := h.targetEnd n
  g.setTwt n { g.twt n with sent := bs ++ (if f.pec then [crc8 (head ++ bs)] else []) }

/-- Byte k that a read has sent. -/
def TwoWirePort.sentByte (x : TwoWirePort) (k : Nat) : Byte := x.sent.getD k 0xFF

/-- How a write of bytes after its code ends: need bytes were declared, and PEC comes after them where it is set (R173, R174). -/
inductive WriteEnd where
  | good
  | short
  | pec
  | long
deriving DecidableEq, Repr

/-- The end of a write. -/
def writeEnd (f : TargetFrame) (raw : List Byte) (need : Nat) : WriteEnd :=
  let total := need + f.pec.toNat
  let head : List Byte := [BitVec.ofNat 8 (f.addr.toNat * 2), f.code.getD 0] ++ raw.take need
  if raw.length < total then .short
  else if f.pec && decide (raw.getD need 0 ≠ crc8 head) then .pec
  else if total < raw.length then .long
  else .good

/-- A write that is not good is discarded and counted. -/
def Hub.writeBad (h : Hub) (n : Nat) (e : WriteEnd) : Hub :=
  match e with
  | .good => h
  | .short => h.bump (twReg n 0x028) 16 8 1
  | .long => h.bump (twReg n 0x028) 16 8 1
  | .pec => h.bump (twReg n 0x030) 0 8 1

/-- CMD_PUT: raw is what follows the code. A count of 0 is NACKed. -/
def Hub.cmdPut (h : Hub) (n : Nat) (raw : List Byte) : Hub :=
  match h.targetFrame n 0x10 false with
  | none => h
  | some f =>
    let g := h.targetEnd n
    if !h.hl.ready then g.bump (xpB (n + 1)) 8 8 1
    else if raw.head? = some 0 then g
    else
      let need := (raw.headD 0).toNat + 1
      match writeEnd f raw need with
      | .good => (g.setXp (n + 1) { g.xp (n + 1) with putAt := g.now }).inbound (n + 1) ((raw.take need).drop 1)
      | e => g.writeBad n e

def execCmdPut (n : Nat) (raw : List Byte) (s : State) : Host.Outcome State Fault Refusal := s.run (fun h => if n < 8 then h.cmdPut n raw else h)

/-- CMD_PUT_TIMEOUT: 100 ms have passed without a block. -/
def execCmdPutTimeout (n : Nat) (s : State) : Host.Outcome State Fault Refusal := s.run (fun h => if n < 8 then h.incomplete (n + 1) else h)

/-- Reply bytes that wait on a transport, and the count that an RSP_GET sends (R332). -/
def Transport.waitingBytes (x : Transport) : List Byte := (x.out.flatMap bytesOfWords).drop x.sent
def Transport.rspCount (x : Transport) : Nat := min 255 x.waitingBytes.length

/-- Reply bytes taken: every reply whose last byte is among them frees its tag. -/
def Hub.takeBytes : Nat → Hub → Nat → Nat → Hub
  | 0, h, t, k => h.setXp t { h.xp t with sent := k }
  | f + 1, h, t, k =>
    match (h.xp t).out with
    | [] => h.setXp t { h.xp t with sent := 0 }
    | r :: _ => if 2 * r.length ≤ k then Hub.takeBytes f (h.replyGone t) t (k - 2 * r.length) else h.setXp t { h.xp t with sent := k }

/-- RSP_GET: clean tells that the frame ended after every counted byte. (log 92: DESIGN CHOICE) -/
def Hub.rspGet (h : Hub) (n : Nat) (clean : Bool) : Hub :=
  match h.targetFrame n 0x11 true with
  | none => h
  | some f =>
    let x := h.xp (n + 1)
    let g := h.serveRead n f (BitVec.ofNat 8 x.rspCount :: x.waitingBytes.take x.rspCount)
    if clean then Hub.takeBytes x.out.length g (n + 1) (x.sent + x.rspCount) else g

def execRspGet (n : Nat) (clean : Bool) (s : State) : Host.Outcome State Fault Refusal := s.run (fun h => if n < 8 then h.rspGet n clean else h)

/-- IRQ_N is low: while a boundary instruction holds the balls, as its cells or HIGHZ leave it (R330, R413). (log 141: DESIGN CHOICE) -/
def Hub.irqLow (h : Hub) : Bool :=
  match h.tap.ir with
  | 0x00 => Config.irqCell h.tap.cells
  | 0x03 => Config.irqCell h.tap.cells
  | 0x04 => false
  | _ => h.irqSources != 0

/-- The byte of HUB_STATUS for a transport (R333). -/
def Hub.statusByte (h : Hub) (t : Nat) : Byte :=
  let x := h.xp t
  BitVec.ofNat 8 (h.hl.rdySeen.toNat + 2 * (!x.out.isEmpty).toNat + 4 * h.irqLow.toNat + 8 * (decide (16 ≤ x.tags.length)).toNat
    + 16 * h.pwr.state + 128 * x.disc.toNat)

/-- HUB_STATUS: the read clears DISC. (log 92: DESIGN CHOICE) -/
def Hub.hubStatus (h : Hub) (n : Nat) : Hub :=
  match h.targetFrame n 0x20 true with
  | none => h
  | some f =>
    let g := h.serveRead n f [h.statusByte (n + 1)]
    { g.setXp (n + 1) { g.xp (n + 1) with disc := false } with readData := (h.statusByte (n + 1)).setWidth 128 }

def execHubStatus (n : Nat) (s : State) : Host.Outcome State Fault Refusal := s.run (fun h => if n < 8 then h.hubStatus n else h)

/-- EQ_PEEK: the record that a pop of EQ0 would have returned when the code was acknowledged, or zeros (R227). (log 92: DESIGN CHOICE) -/
def Hub.eqPeek (h : Hub) (n : Nat) : Hub :=
  match h.targetFrame n 0x21 true with
  | none => h
  | some f => { h.serveRead n f (bytesOf 16 f.item.toNat) with readData := f.item }

def execEqPeek (n : Nat) (s : State) : Host.Outcome State Fault Refusal := s.run (fun h => if n < 8 then h.eqPeek n else h)

/-- TW_LTOL_SET: PWR_CTRL.LTOL is written when the frame ends (R333). -/
def Hub.twLtol (h : Hub) (n : Nat) (raw : List Byte) : Hub :=
  match h.targetFrame n 0x22 false with
  | none => h
  | some f =>
    let g := h.targetEnd n
    match writeEnd f raw 2 with
    | .good => g.setFld 0x10100 0 16 (ofBytes (raw.take 2))
    | e => g.writeBad n e

def execTwLtolSet (n : Nat) (raw : List Byte) (s : State) : Host.Outcome State Fault Refusal := s.run (fun h => if n < 8 then h.twLtol n raw else h)

/-! ### The UDP management port (R334, R335) -/

/-- The slot of a source, or the lowest free one; as a transport. (log 89: DEDUCED) -/
def Hub.slotOf (h : Hub) (d : MgmtDg) : Option Nat :=
  let mine (t : Nat) : Bool := (h.xp t).source.any (fun x => x.1 == d.v6 && x.2.1 == d.srcIp && x.2.2.1 == d.srcPort)
  ([9, 10, 11, 12].find? mine).orElse (fun _ => [9, 10, 11, 12].find? (fun t => (h.xp t).source.isNone))

/-- The datagram is for the management port of MAC m. (log 93: DEDUCED) -/
def Hub.isManaged (h : Hub) (m : Nat) (d : MgmtDg) : Bool :=
  let mac := h.fld 0xC0050 1 2
  h.bit 0xC0050 0 && (mac == m || mac == 2) && d.toHub && (d.fragment || d.dstPort.toNat == h.fld 0xC0050 16 16)

/-- MGMT_DATAGRAM: whole packets back to back. A source gains its slot at its first accepted packet. (log 89: DEDUCED) -/
def Hub.mgmt (h : Hub) (m : Nat) (d : MgmtDg) : Hub :=
  if !h.isManaged m d || !h.macOn m || !(h.mac m).link then h
  else if d.fragment then h.bump 0xC0054 16 8 1
  else
    match h.slotOf d with
    | none => h.bump 0xC0054 8 8 1
    | some t =>
      let was := (h.xp t).source.isSome
      let h1 := h.setXp t { (if was then h.xp t else Transport.init) with source := some (d.v6, d.srcIp, d.srcPort, m), inbuf := [] }
      let h2 := (h1.inbound t d.bytes).incomplete t
      if was || !(h2.xp t).tags.isEmpty then h2 else h2.setXp t Transport.init

def execMgmtDatagram (m : Nat) (dg : MgmtDg) (s : State) : Host.Outcome State Fault Refusal := s.run (fun h => if m < 2 then h.mgmt m dg else h)

/-- UDP_SLOT_EXPIRE: 60 s without an accepted packet, and no tag outstanding. -/
def Hub.slotExpire (h : Hub) (slot : Nat) : Hub := if (h.xp (9 + slot)).tags.isEmpty then h.setXp (9 + slot) Transport.init else h

def execUdpSlotExpire (slot : Nat) (s : State) : Host.Outcome State Fault Refusal := s.run (fun h => if slot < 4 then h.slotExpire slot else h)

/-! ### Frames received (R357, R358, R363) -/

/-- The IPv6 address of a MAC. -/
def Hub.ip6 (h : Hub) (m : Nat) : BitVec 128 :=
  h.reg (macReg m 0x20) ++ h.reg (macReg m 0x24) ++ h.reg (macReg m 0x28) ++ h.reg (macReg m 0x2C)

/-- The destinations a MAC accepts. -/
def Hub.macAccepts (h : Hub) (m : Nat) (a : BitVec 48) : Bool :=
  a = h.station m || a = 0xFFFFFFFFFFFF || a = 0x0180C200000E || a = 0x011B19000000 || a = 0x01005E000181 || a = 0x33330000006B
    || a = 0x333300000181 || a = (0x3333FF : BitVec 24) ++ (h.ip6 m).extractLsb' 0 24

/-- A frame that is not served is counted. (log 76: DEDUCED) -/
def Hub.rxFilt (h : Hub) (m : Nat) : Hub := h.bump (macReg m 0x74) 8 8 1
/-- The stamp of an accepted frame, which Mbonik is handed with it (R362). (log 76: DEDUCED) -/
def Hub.rxStamp (h : Hub) (m : Nat) (f : RxFrame) : Hub := h.setMac m { h.mac m with rxAt := BitVec.ofInt 36 (h.rxInstant m f.capTs f.capFrac) }
/-- A frame that is served is counted. (log 76: DEDUCED) -/
def Hub.rxServed (h : Hub) (m : Nat) (f : RxFrame) : Hub := (h.rxStamp m f).bump (macReg m 0x70) 16 16 1

/-- An Announce: counted for the probes, then by the port's role. (log 93: DEDUCED) -/
def Hub.rxAnnounce (h : Hub) (m : Nat) (g : GmData) : Hub :=
  let x := h.mac m
  let h1 := h.setMac m { x with announces := x.announces + 1, gm := g.gmId }
  let h2 := ((List.range 64).filter (fun j => h1.probeMethod j == 4 && h1.probeIndex j == m && h1.bit (prReg j 0) 0)).foldl (fun (k : Hub) j =>
    k.setPrb j { k.prb j with seen := (k.prb j).seen + 1, gm := g.gmId.setWidth 32 }) h1
  if !h2.ptpOn then h2
  else if h2.role m = 2 then h2.bump (macReg m 0x78) 8 8 1
  else if h2.role m = 1 then h2.setPtp { h2.ptp with gm := some g, annAt := h2.now }
  else h2

/-- A PTP message that is served. -/
def Hub.rxPtp (h : Hub) (m : Nat) (k : PtpKind) (f : RxFrame) : Hub :=
  match k with
  | .announce g => (h.rxServed m f).rxAnnounce m g
  | .unsupported => h.rxFilt m
  | .delayReq =>
    if !h.ptpOn || h.role m == 0 then h.rxFilt m
    else if h.ptpSends m && h.profile == 1 && h.role m == 2 then (h.rxServed m f).queueFrame m .delayResp
    else h.rxServed m f
  | .pdelayReq =>
    if !h.ptpOn || h.role m == 0 then h.rxFilt m
    else if h.ptpSends m && h.profile == 0 then ((h.rxServed m f).queueFrame m .pdelayResp).queueFrame m .pdelayRespFu
    else h.rxServed m f
  | _ => if !h.ptpOn || h.role m == 0 then h.rxFilt m else h.rxServed m f

/-- FRAME_RECEIVE. -/
def Hub.frameReceive (h : Hub) (m : Nat) (f : RxFrame) : Hub :=
  if !h.macOn m || !(h.mac m).link then h
  else if !f.fcsOk || f.len < 64 || 1522 < f.len then h.bump (macReg m 0x74) 0 8 1
  else
    match f.body with
    | .pause q =>
      if !h.bit (macReg m 0) 4 then h.rxFilt m
      else
        let units := if h.macMode m = 1 then q.toNat * 131072 / 10 else q.toNat * 32768
        (h.rxServed m f).setMac m { (h.rxServed m f).mac m with pause := if q = 0 then none else some (h.now + units) }
    | body =>
      if !h.macAccepts m f.dst then h.rxFilt m
      else
        let h := h.rxStamp m f
        match body with
        | .ptp k major domain =>
          if major ≠ 2 ∨ domain ≠ h.fld 0xF7000 8 8 then h.bump (macReg m 0x78) 0 8 1 else h.rxPtp m k f
        | .arp ip mac_ from_ =>
          if h.bit (macReg m 0x14) 0 ∧ ip = h.reg (macReg m 0x10) then (h.rxServed m f).queueFrame m (.arp mac_ from_) else h.rxFilt m
        | .neighbour ip mac_ from_ =>
          if h.bit (macReg m 0x14) 1 ∧ ip = h.ip6 m then (h.rxServed m f).queueFrame m (.neighbour mac_ from_) else h.rxFilt m
        | .mgmt d => if h.isManaged m d then (h.rxServed m f).mgmt m d else h.rxFilt m
        | _ => h.rxFilt m

def execFrameReceive (m : Nat) (f : RxFrame) (s : State) : Host.Outcome State Fault Refusal := s.run (fun h => if m < 2 then h.frameReceive m f else h)

/-! ### Registers (R336) -/

/-- What a fabric read of the host link block gives. -/
def Hub.hlRead (h : Hub) (off : Nat) : Word :=
  let x := h.hl
  match off with
  | 0x004 => BitVec.ofNat 32 ((!(h.xp 0).out.isEmpty).toNat + 2 * x.rdy.toNat + 4 * x.sel.toNat + 8 * x.mode3.toNat + 16 * x.quad.toNat)
  | 0x008 => BitVec.ofNat 32 h.irqSources
  | 0x054 => h.seen 0xC0054 ||| BitVec.ofNat 32 ((List.range 4).foldl (fun n i => n + (h.xp (9 + i)).source.isSome.toNat * 2 ^ i) 0)
  | _ =>
    if 0x180 ≤ off ∧ off < 0x1B4 then
      let t := h.xp ((off - 0x180) / 4)
      BitVec.ofNat 32 (t.tags.length + 32 * (!t.out.isEmpty).toNat)
    else h.seen (0xC0000 + off)

/-- A fabric write to the host link block: MG_CFG.EN at 0 frees every slot. -/
def Hub.hlWrite (h : Hub) (off : Nat) (v : Word) : Hub :=
  let h1 := h.putReg hlErr 0 (0xC0000 + off) (h.bit 0xC0050 0) anyField v
  if off = 0x050 ∧ !h1.bit 0xC0050 0 then [9, 10, 11, 12].foldl (fun (g : Hub) t => g.setXp t Transport.init) h1 else h1

end Sys2Proof.Machine
end

