-- ==== Sys2Proof/Machine/Fabric.lean ====
section
/-! DEFINITION. The fabric (R22, R27 to R33): a read and a write of any fabric address, dispatched to the block it lies in; the requests
that engines have issued (R244, R245); parity failures (R29, R30); and the shadow mismatch (R285). -/

namespace Sys2Proof.Machine

/-- SYS_ERR (R406). -/
def sysErr : ErrReg := ⟨0x1007C, 3, 0, 0⟩

/-- A FAB_ERR bit set, with the address when every bit was clear (R22). -/
def Hub.fabErr (h : Hub) (b addr : Nat) : Hub :=
  (if h.reg 0x10048 = 0 then h.setReg 0x1004C (BitVec.ofNat 32 addr) else h).setBit 0x10048 b true

/-! ### System control (R22, R399, R406) -/

/-- A write of WDT_KICK. -/
def Hub.wdtKick (h : Hub) (col : Bool) (v : Word) : Hub :=
  if !col then h.flag sysErr 2 0 else if v = 0x5A5A then { h with wdt := 0 } else h.flag sysErr 0 0

/-- A write of WDT_CTRL: EN stays 1 in FIELD and RETURN, and an accepted TIMEOUT_MS restarts the count. (log 95: DEDUCED) -/
def Hub.wdtWrite (h : Hub) (v : Word) : Hub :=
  let kept : Bool := decide (2 ≤ h.lc.toNat) && !v.getLsbD 16
  let h1 := h.putReg sysErr 0 0x10064 false anyField (if kept then setBits v 16 1 1 else v)
  let h2 := if kept then h1.flag sysErr 1 0 else h1
  if 10 ≤ bits v 0 16 then { h2 with wdt := 0 } else h2

/-- The bits of SUP_STATUS that tell what is in range now (R422). -/
def Hub.railsOk (h : Hub) : Word :=
  let ok (b : Bool) (i : Nat) : Nat := (!b).toNat * 2 ^ i
  BitVec.ofNat 32 (ok (h.supply.getLsbD 0) 8 + ok (h.supply.getLsbD 1 || h.supply.getLsbD 4) 9 + ok (h.supply.getLsbD 2) 10
    + ok (h.supply.getLsbD 3) 11)

/-- What a fabric read of the system control block gives. (log 40: DEDUCED) -/
def Hub.sysRead (h : Hub) (off : Nat) : Word :=
  if 0x100 ≤ off ∧ off < 0x180 then h.pwrRead off
  else if off = 0x070 then h.seen 0x10070 ||| h.railsOk
  else h.seen (0x10000 + off)

/-- A fabric write to it. -/
def Hub.sysWrite (h : Hub) (col : Bool) (off : Nat) (v : Word) : Hub :=
  if 0x100 ≤ off ∧ off < 0x180 then h.pwrWrite off v
  else
    match off with
    | 0x050 => h.putReg ltErr 0 0x10050 false anyField v
    | 0x064 => h.wdtWrite v
    | 0x068 => h.wdtKick col v
    | _ => h.putReg sysErr 0 (0x10000 + off) false anyField v

/-! ### One register -/

/-- What a read of the register at a place gives, and the machine after it, apart from RC fields. (log 40: DEDUCED) -/
def State.regGet (s : State) (l : Loc) (a : Nat) : Word × State :=
  let h := s.hub
  match l.blk with
  | .layout => (h.layoutWord l.off, s)
  | .sys => (h.sysRead l.off, s)
  | .tb => ((h.tbRead l.off).1, { s with hub := (h.tbRead l.off).2 })
  | .ang => (h.angRead l.off, s)
  | .ase => (h.aseRead l.idx l.off, s)
  | .hch => (h.hchRead l.idx l.off, s)
  | .hbc => (h.seen a, s)
  | .mch => (h.mchRead l.idx l.off, s)
  | .mbc => (h.seen a, s)
  | .rsm => (h.rsmRead l.idx l.off, s)
  | .rsc => (h.seen a, s)
  | .rom => (romRead l.off, s)
  | .recog => (h.recRead l.idx l.off, s)
  | .recc => (h.seen a, s)
  | .ctx => ((h.ctxRead l.idx l.off).1, { s with hub := (h.ctxRead l.idx l.off).2 })
  | .tx => (h.txRead l.idx l.off, s)
  | .probe => (h.probeRead l.idx l.off, s)
  | .sch => (h.schRead l.off, s)
  | .sp => (h.spRead l.idx l.off, s)
  | .tw => (h.twRead l.idx l.off, s)
  | .twc => (h.seen a, s)
  | .hl => (h.hlRead l.off, s)
  | .eq =>
    if l.off = 0 then
      let g := h.headPop l.idx false
      (g.copied (0xD0000 + 0x100 * l.idx) 0, { s with hub := g })
    else (h.eqRead l.idx l.off, s)
  | .eqc => (h.seen a, s)
  | .ring => (h.ringRead l.idx l.off, s)
  | .ringc => (h.seen a, s)
  | .mac => (h.macRead l.idx l.off, s)
  | .ptp => (h.ptpRead l.off, s)
  | .rep => (if 0x100 ≤ l.off ∧ l.off < 0x280 then h.agRead l.off else h.rpRead l.off, s)
  | .sec => ((s.secRead l.off).1, { s with hub := (s.secRead l.off).2 })
  | .keys => (s.keyRead l.off, s)
  | .eng => ((h.engRead l.idx l.off).1, { s with hub := (h.engRead l.idx l.off).2 })

/-- A 32-bit write to the register at a place. -/
def State.regPut (s : State) (col : Bool) (l : Loc) (a : Nat) (v : Word) : State :=
  let h := s.hub
  match l.blk with
  | .layout => { s with hub := h.flag ltErr 2 0 }
  | .sys => { s with hub := h.sysWrite col l.off v }
  | .tb => { s with hub := h.tbWrite l.off v }
  | .ang => { s with hub := h.angWrite l.off v }
  | .ase => { s with hub := h.aseWrite l.idx l.off v }
  | .hch => { s with hub := h.hchWrite l.idx l.off v }
  | .hbc => { s with hub := h.hbcWrite l.off v }
  | .mch => { s with hub := h.mchWrite l.idx l.off v }
  | .mbc => { s with hub := h.mbcWrite l.off v }
  | .rsm => { s with hub := h.rsmWrite l.idx l.off v }
  | .rsc => { s with hub := h.putReg rsErr 0 a false anyField v }
  | .rom => { s with hub := h.flag rsErr 3 0x3F }
  | .recog => { s with hub := h.recWrite l.idx l.off v }
  | .recc => { s with hub := h.putReg recErr 0 a false anyField v }
  | .ctx => { s with hub := h.ctxWrite l.idx l.off v }
  | .tx => { s with hub := if l.off = 8 then (h.txWrite l.idx l.off v).followProbes else h.txWrite l.idx l.off v }
  | .probe => { s with hub := h.probeWrite l.idx l.off v }
  | .sch => { s with hub := h.schWrite l.off v }
  | .sp => { s with hub := h.spWrite col l.idx l.off v }
  | .tw => { s with hub := h.twWrite l.idx l.off v }
  | .twc => s
  | .hl => { s with hub := h.hlWrite l.off v }
  | .eq => { s with hub := h.eqWrite l.idx l.off v }
  | .eqc => { s with hub := h.putReg eqErr 0 a false anyField v }
  | .ring => { s with hub := h.ringSet l.idx l.off v }
  | .ringc => { s with hub := h.putReg ringErr 0 a false anyField v }
  | .mac => { s with hub := h.macWrite l.idx l.off v }
  | .ptp => { s with hub := h.ptpWrite l.off v }
  | .rep => { s with hub := if 0x100 ≤ l.off ∧ l.off < 0x280 then h.agWrite l.off v else h.rpWrite l.off v }
  | .sec => { s with hub := h.secWrite l.off v }
  | .keys => s.keyWrite l.off v
  | .eng => s.engWrite col l.idx l.off v

/-- A register read, which clears its RC fields when its bytes reach one (R7, R31). touched holds the bits of the bytes read. -/
def State.regRead (s : State) (l : Loc) (a : Nat) (touched : Word) : Word × State :=
  let r := s.regGet l a
  let m := rcMask (fieldsAt a)
  if m &&& touched = 0 then r else (r.1, r.2.mapHub (fun h => h.setReg a (h.reg a &&& ~~~ m)))

/-! ### Any address (R31, R33) -/

/-- What lies at an address. -/
inductive Region where
  | regs (l : Loc)
  | sram
  | commons
  /-- an engine's window, and the offset in it -/
  | window (e off : Nat)
  | unmapped
deriving DecidableEq, Repr

/-- The region of an address (R33, R258). -/
def regionOf (a : Nat) : Region :=
  if sramBase ≤ a ∧ a < sramBase + 0x1000000 then .sram
  else if commonsBase ≤ a ∧ a < commonsBase + 0x40000 then .commons
  else if windowBase ≤ a ∧ a < windowBase + 0x480000 then
    (if (a - windowBase) % 0x10000 < 0xC000 then .window ((a - windowBase) / 0x10000) ((a - windowBase) % 0x10000) else .unmapped)
  else
    match locate (a / 4 * 4) with
    | some l => .regs l
    | none => .unmapped

/-- The number of an initiator as reservations know it: an engine's own, 72 for the Col pair, 73 for others (R247). -/
def initiatorNumber (b : Initiator) : Nat :=
  match b with
  | .col => 72
  | .eng n => n
  | .debug => 73
  | .path => 73

/-- The engine whose RAM the window of engine e shows: a shadow follows its live engine (R284). -/
def Hub.mirror (h : Hub) (e : Nat) : Nat :=
  let x := h.shd 3
  if decide (2 ≤ x.phase) && x.spare == some e then ((x.live.map (fun n => h.physOf 0x50 n)).getD e) else e

/-- A byte of an engine's window (R241, R243). -/
def State.windowByte (s : State) (e off : Nat) : Byte :=
  let k := s.hub.mirror e
  if off < 0x8000 then (s.load (windowBase + 0x10000 * k + off) 1).headD 0
  else
    let w := s.dataWord k ((off - 0x8000) / 2)
    if off % 2 = 0 then w.setWidth 8 else (w >>> 8).setWidth 8

/-- A byte written to data RAM through a window, and bytes from an offset on. -/
def State.dataByte (s : State) (e off : Nat) (b : Byte) : State :=
  let w := s.dataWord e ((off - 0x8000) / 2)
  s.fabricData e ((off - 0x8000) / 2) (if off % 2 = 0 then (w >>> 8).setWidth 8 ++ b else b ++ w.setWidth 8)
def State.dataBytes (s : State) (e off : Nat) : List Byte → State
  | [] => s
  | b :: r => State.dataBytes (s.dataByte e off b) e (off + 1) r

/-- A fabric read of up to 4 bytes: the bytes read, and the machine after it. (log 40: DEDUCED) -/
def State.fabricRead (s : State) (by_ : Initiator) (a n : Nat) : Nat × State :=
  if s.hub.blocked a && by_ != .col then (0, s.mapHub (fun h => h.refuse a))
  else
    match regionOf a with
    | .regs l =>
      let sh := a % 4 * 8
      let k := min (8 * n) (32 - sh)
      let (w, s1) := s.regRead l (a / 4 * 4) (setBits 0 sh k (2 ^ k - 1))
      (bits w sh k, s1)
    | .sram => (ofBytes (s.load a n), s)
    | .commons => (ofBytes (s.load a n), s)
    | .window e off => (ofBytes ((List.range n).map (fun i => s.windowByte e (off + i))), s)
    | .unmapped => (0, s.mapHub (fun h => h.fabErr 0 a))

/-- What a write narrower than 32 bits flags in its block beside WIDTH: the Layout Table and EQ_PUSH refuse it as any other (R36, R225). -/
def Hub.narrow (h : Hub) (l : Loc) : Hub :=
  match l.blk with
  | .layout => h.flag ltErr 2 0
  | .eq => if 0x10 ≤ l.off ∧ l.off < 0x20 then h.eqPush l.idx 16 0 else h
  | _ => h

/-- A fabric write of up to 4 bytes. -/
def State.fabricWrite (s : State) (by_ : Initiator) (a n v : Nat) : State :=
  if s.hub.blocked a && by_ != .col then s.mapHub (fun h => h.refuse a)
  else
    match regionOf a with
    | .regs l => if n < 4 then s.mapHub (fun h => (h.fabErr 1 a).narrow l) else s.regPut (by_ == .col) l (a / 4 * 4) (BitVec.ofNat 32 v)
    | .sram => s.store a (bytesOf n v)
    | .commons =>
      State.store (s.mapHub (fun h => (h.endReservations (a / 8 * 8) (initiatorNumber by_)).endReservations ((a + n - 1) / 8 * 8) (initiatorNumber by_))) a
        (bytesOf n v)
    | .window e off =>
      if off < 0x8000 then
        let st := (s.hub.eng e).st
        if st = .reset ∨ st = .halted ∨ st = .retired then s.store a (bytesOf n v) else s.mapHub (fun h => h.flag (engErr e) 3 0)
      else s.dataBytes e off (bytesOf n v)
    | .unmapped => s.mapHub (fun h => h.fabErr 0 a)

/-- k words read from an address aligned to their count. -/
def State.readWords (by_ : Initiator) : Nat → Nat → State → List Half × State
  | _, 0, s => ([], s)
  | a, 1, s => let (v, s1) := s.fabricRead by_ a 2
               ([BitVec.ofNat 16 v], s1)
  | a, k + 2, s =>
    let (v, s1) := s.fabricRead by_ a 4
    let (l, s2) := State.readWords by_ (a + 4) k s1
    (BitVec.ofNat 16 v :: BitVec.ofNat 16 (v / 65536) :: l, s2)

/-- Words written from an address aligned to their count, those a mask leaves out being none. -/
def State.writeWords (by_ : Initiator) : Nat → List (Option Half) → State → State
  | _, [], s => s
  | a, [x], s =>
    match x with
    | some v => s.fabricWrite by_ a 2 v.toNat
    | none => s
  | a, x :: y :: r, s =>
    State.writeWords by_ (a + 4) r
      (match x, y with
       | some v, some w => s.fabricWrite by_ a 4 (v.toNat + w.toNat * 65536)
       | some v, none => s.fabricWrite by_ a 2 v.toNat
       | none, some w => s.fabricWrite by_ (a + 2) 2 w.toNat
       | none, none => s)

/-- A whole 128-bit word for EQ_PUSH goes in as one (R225). -/
def pushQueue (a : Nat) (ws : List (Option Half)) : Option (Nat × BitVec 128) :=
  if 0xD0000 ≤ a ∧ a < 0xD2000 ∧ a % 0x100 = 0x10 ∧ ws.length = 8 ∧ ws.all Option.isSome then
    some ((a - 0xD0000) / 0x100, BitVec.ofNat 128 (ofBytes (ws.flatMap (fun w => bytesOf 2 (w.getD 0).toNat))))
  else none

/-- A request of engine e reaches its target (R245 to R248). -/
def State.serve (s : State) (e : Nat) (r : EngReq) : State :=
  let by_ : Initiator := if e = 72 then .col else .eng e
  match r with
  | .write a ws =>
    match pushQueue a ws with
    | some (q, item) => s.mapHub (fun h => h.eqPush q 128 item)
    | none => State.writeWords by_ a ws s
  | .read w a k =>
    let (ws, s1) := State.readWords by_ a k s
    s1.mapHub (fun h =>
      let x := h.eng e
      match tget x.slots w with
      | none => h
      | some t => h.setEng e { x with slots := tput x.slots w { t with data := some ws } })

/-- The target port of an address: an SRAM bank, the commons, an engine's window, or a page of registers. -/
def portAt (a : Nat) : Nat :=
  match regionOf a with
  | .sram => (a - sramBase) / 0x100000
  | .commons => 16
  | .window e _ => 17 + e
  | .regs _ => 100 + a / 0x10000
  | .unmapped => 99

/-- Address of a request. -/
def EngReq.addr : EngReq → Nat
  | .write a _ => a
  | .read _ a _ => a

/-- A request writes a byte of the granule at an address. -/
def EngReq.writesGranule (g : Nat) : EngReq → Bool
  | .write a ws => decide (a < g + 8 ∧ g < a + 2 * ws.length)
  | .read _ _ _ => false

/-- A read of the granule its engine has reserved waits while a hold keeps back a store of another engine to it (R248). -/
def Hub.ldrWaits (h : Hub) (q : Nat × EngReq) : Bool :=
  let g := q.2.addr / 8 * 8
  (match q.2 with
    | .read _ _ _ => (h.eng q.1).res == some g
    | .write _ _ => false) && h.outq.any (fun p => p.1 != q.1 && h.engHeld p.1 && p.2.writesGranule g)

/-- The first request of each initiator, in the order of issue. -/
def firstOfEach : List (Nat × EngReq) → List (Nat × EngReq)
  | [] => []
  | q :: r => q :: (firstOfEach r).filter (fun p => p.1 != q.1)

/-- The request a target port grants next: round robin after the initiator it granted last, each initiator's in order of issue; those of an engine
that a hold keeps stay (R27, R245, R248, R285). (log 134: DESIGN CHOICE) -/
def Hub.nextGrant (h : Hub) : Option (Nat × EngReq) :=
  match (firstOfEach h.outq).filter (fun q => !h.engHeld q.1 && !h.ldrWaits q) with
  | [] => none
  | q :: r =>
    let port := portAt q.2.addr
    let turn (p : Nat × EngReq) : Nat := (p.1 + 72 - tval 72 h.grants port) % 73
    some (r.foldl (fun b p => if portAt p.2.addr = port ∧ turn p < turn b then p else b) q)

/-- Up to n requests reach their targets. -/
def State.grant : Nat → State → State
  | 0, s => s
  | n + 1, s =>
    match s.hub.nextGrant with
    | none => s
    | some q =>
      State.grant n (State.serve (s.mapHub (fun h => { h with
        outq := h.outq.erase q, grants := tset 72 h.grants (portAt q.2.addr) q.1 })) q.1 q.2)

/-- Every request that waits reaches its target, if no hold keeps it (R27, R245). (log 134: DESIGN CHOICE) -/
def State.drainRequests (s : State) : State := State.grant s.hub.outq.length s

/-! ### The commands -/

/-- REGISTER_WRITE (R7, R11, R31). -/
def execRegisterWrite (by_ : Initiator) (addr bytes : Nat) (val : Word) (s : State) : Host.Outcome State Fault Refusal :=
  .next (s.fabricWrite by_ addr (min 4 bytes) val.toNat).settle

/-- A read whose data readData shows. -/
def State.readShown (s : State) (by_ : Initiator) (a n : Nat) : State :=
  let r := s.fabricRead by_ a n
  r.2.mapHub (fun h => { h with readData := BitVec.ofNat 128 r.1 })

/-- RC_READ (R7, R31). -/
def execRcRead (by_ : Initiator) (addr bytes : Nat) (s : State) : Host.Outcome State Fault Refusal :=
  .next (s.readShown by_ addr (min 4 bytes)).settle

/-- COUNTER_LOW_READ (R13). -/
def execCounterLowRead (by_ : Initiator) (addr : Nat) (s : State) : Host.Outcome State Fault Refusal :=
  .next (s.readShown by_ addr 4).settle

/-- A record that a consumer discards: a recogniser its tap, another block of the record path the record; the next record of the stream after it
carries GAP (R29, R54, R55). (log 42: DEDUCED) -/
def Hub.parityRecord (h : Hub) (reg sid : Nat) : Hub :=
  if reg = 0x7F040 then
    match h.taps.find? (fun t => t.2.sid == sid) with
    | none => h.lose sid
    | some t => Hub.actedFor ({ h with taps := h.taps.erase t }.loseAt sid t.2.seq) t.2
  else if 0x40000 ≤ reg ∧ reg < 0x70000 then (h.sourceHole sid).lose sid
  else if 0xC0000 ≤ reg ∧ reg < 0xD0000 ∨ 0xF0000 ≤ reg ∧ reg < 0x100000 then h.lose sid
  else
    match h.oldest sid with
    | none => h.lose sid
    | some f => Hub.toTaps ({ h with flight := dropFlight sid h.flight }.loseAt sid f.seq) sid

/-- FABRIC_PARITY_FAIL (R29, R223, R241): the word is discarded and counted; a fetch or a load of an engine traps instead of being reported, a queue's
stage waits for the pop that reads it, and a corrected error changes its bank's counter alone. (log 42: DEDUCED) (log 133: DESIGN CHOICE) -/
def State.parityFail (s : State) (c : ParitySite) : State :=
  match c.word with
  | .record sid => s.mapHub (fun h => (h.parityError c.reg c.ty c.inst).parityRecord c.reg sid)
  | .regWrite => s.mapHub (fun h => h.parityError c.reg c.ty c.inst)
  | .other => s.mapHub (fun h => h.parityError c.reg c.ty c.inst)
  | .corrected => s.mapHub (fun h => { h with corrected := tset 0 h.corrected c.inst (tval 0 h.corrected c.inst + 1) })
  | .stage place => if c.inst < 32 then s.mapHub (fun h => h.spoil c.inst place) else s
  | .fetch => if c.inst ≤ 72 ∧ (s.hub.eng c.inst).st.runs then State.trapTo (s.mapHub (fun h => h.bump c.reg 0 16 1)) c.inst 10 0 else s
  | .load => if c.inst ≤ 72 ∧ (s.hub.eng c.inst).st.runs then State.trapTo (s.mapHub (fun h => h.bump c.reg 0 16 1)) c.inst 10 1 else s

def execFabricParityFail (c : ParitySite) (s : State) : Host.Outcome State Fault Refusal := .next (s.parityFail c).settle

/-- The window of engine e whose read of an address has been served and has not been told to have arrived. -/
def Engine.reading (x : Engine) (a : Nat) : Option (Nat × WinSlot) := x.slots.find? (fun t => t.2.addr == a && t.2.data.isSome && !t.2.arrived)

/-- The read of a window slot is issued once more: the second reply is what arrives, all zeros where it failed too (R30, R246). -/
def State.slotAgain (s : State) (e w : Nat) (t : WinSlot) (again : Bool) : State :=
  let (ws, s1) := State.readWords (if e = 72 then .col else .eng e) t.addr t.count s
  s1.mapHub (fun h =>
    let h1 := if again then h.fabErr 2 t.addr else h
    let x := h1.eng e
    h1.setEng e { x with slots := tput x.slots w { t with data := some (if again then ws.map (fun _ => 0) else ws), bad := again } })

/-- READ_REPLY_PARITY_FAIL: the read is issued once more, and again tells that its reply failed too (R30). (log 41: DEDUCED) -/
def State.replyFail (s : State) (by_ : Initiator) (a n : Nat) (again : Bool) : State :=
  let e := initiatorNumber by_
  let s0 := if e ≤ 72 then s.drainRequests else s
  match if e ≤ 72 then (s0.hub.eng e).reading a else none with
  | some (w, t) => s0.slotAgain e w t again
  | none =>
    let s1 := s.readShown by_ a n
    if again then s1.mapHub (fun h => { h.fabErr 2 a with readData := 0 }) else s1

/-- (log 41: DEDUCED) -/
def execReadReplyParityFail (by_ : Initiator) (addr : ReadSpan) (again : Bool) (s : State) : Host.Outcome State Fault Refusal :=
  .next (s.replyFail by_ addr.addr (min 4 addr.bytes) again).settle

/-- READ_DATA_ARRIVAL: the request has been served at the latest now; bad tells that its reply failed parity twice (R30, R246). -/
def State.dataArrives (s : State) (e w : Nat) (bad : Bool) : State :=
  let s1 := s.drainRequests
  s1.mapHub (fun h =>
    let x := h.eng e
    match tget x.slots w with
    | none => h
    | some t =>
      if t.arrived || t.data.isNone then h
      else
        let h1 := if bad then h.fabErr 2 t.addr else h
        h1.setEng e { x with slots := tput x.slots w { t with arrived := true, bad := t.bad || bad } })

def execReadDataArrival (e : Nat) (w : BitVec 2) (bad : Bool) (s : State) : Host.Outcome State Fault Refusal :=
  .next (if e ≤ 72 then s.dataArrives e w.toNat bad else s).settle

/-- SHADOW_MISMATCH: writes both engines agreed on have left, and the hold begins (R284, R285). -/
def State.shadowMismatch (s : State) (k stage : Nat) : State :=
  let s1 := (if k = 3 then s.drainRequests else s).mapHub (fun h => h.mismatch k stage)
  if k = 3 ∧ (s.hub.shd 3).phase = 2 ∧ (s1.hub.shd 3).phase = 3 then s1.thirdOpinion else s1

/-- (log 59: DESIGN CHOICE) -/
def execShadowMismatch (k : Nat) (stage : BitVec 4) (s : State) : Host.Outcome State Fault Refusal :=
  .next (if k < 4 then s.shadowMismatch k stage.toNat else s).settle

end Sys2Proof.Machine
end

