-- ==== Sys2Proof/Machine/Commands.lean ====
section
/-! DEFINITION. Command packets as Mbonik carries them out (R338 to R343), block access (R341), and the groups from system to rings, time,
power and register access (R344 to R351, R355). -/

namespace Sys2Proof.Machine

/-! ### Answers (R338, R339) -/

/-- What carrying out a packet comes to: OK with its reply words, another status with R0 and R1, or no reply yet. -/
inductive Answer where
  | ok (s : State) (ws : List Half)
  | bad (s : State) (status r0 r1 : Nat)
  | later (s : State)

/-- A word as two reply words, and a number as n of them, low word first. -/
def half2 (w : Word) : List Half := [w.setWidth 16, (w >>> 16).setWidth 16]
def halves (n v : Nat) : List Half := (List.range n).map (fun i => BitVec.ofNat 16 (v / 2 ^ (16 * i)))

/-- Parameter word i, and a number of n words from word i on, low word first. -/
def pword (p : Pkt) (i : Nat) : Nat := (p.params.getD i 0).toNat
def pnum (p : Pkt) (i n : Nat) : Nat := (List.range n).foldl (fun v k => v + pword p (i + k) * 2 ^ (16 * k)) 0

/-- The packet's tag and opcode are those of an accepted packet. (log 103: DEDUCED) -/
def isPacket (op : Nat) (p : Pkt) (a : Packet) : Bool :=
  a.t == p.t && packetTag a.words == p.tag && (hiByte (a.words.headD 0)).toNat == op

/-- Execution of a packet begins: it leaves the accepted ones; a packet given as a command alone has its tag outstanding from here on. (log 103: DEDUCED) -/
def Hub.begun (h : Hub) (op : Nat) (p : Pkt) : Hub :=
  let x := h.xp p.t
  let h1 := h.setHl { h.hl with accepted := h.hl.accepted.eraseP (isPacket op p) }
  if x.tags.contains p.tag then h1 else h1.setXp p.t { x with tags := x.tags ++ [p.tag] }

/-- A reply is formed. -/
def Hub.formReply (h : Hub) (op : Nat) (p : Pkt) (status : Nat) (ws : List Half) : Hub :=
  h.sendReply p.t (replyPacket (BitVec.ofNat 8 op) (BitVec.ofNat 8 status) p.tag ws)

/-- The end of a packet's execution: its reply, which QUIET suppresses when the status is OK (R320, R322). (log 96: DEDUCED) -/
def State.answered (op : Nat) (p : Pkt) (a : Answer) : State :=
  match a with
  | .ok s ws => s.mapHub (fun h => if p.flags.getLsbD 0 then h.freeTag p.t p.tag else h.formReply op p 0 ws)
  | .bad s st r0 r1 => s.mapHub (fun h => h.formReply op p st [BitVec.ofNat 16 r0, BitVec.ofNat 16 r1])
  | .later s => s

/-- The detail word of DENIED where a transport may not use a group, by lifecycle and debug state (R342, R391). -/
def Hub.denied (h : Hub) (op t : Nat) : Option Nat :=
  let lc := h.lc.toNat
  let db := h.sec.dbg.toNat
  let wired (b : Bool) : Option Nat := if b then none else some 2
  if op < 0x10 then none
  else if op < 0x90 then (if lc = 0 ∧ db = 0 then some 1 else none)
  else if op < 0xA0 then (if lc ≤ 1 then none else wired (decide (t ≤ 8)))
  else if op < 0xB0 then (if lc = 0 ∧ db = 0 then some 1 else none)
  else
    match lc, db with
    | 0, 0 => some 1
    | 0, _ => none
    | 1, _ => none
    | 2, 1 => wired (t == 0)
    | 3, 1 => wired (decide (t ≤ 8))
    | _, _ => some 1

/-- VALE does not allow the packet (R343). -/
def Hub.wrongPower (h : Hub) (op : Nat) (p : Pkt) : Bool :=
  let code := pword p 0 % 256
  h.pwr.state == 2 && (((op == 0x20 || op == 0x21) && (code == 0 || code == 2)) || ((op == 0x60 || op == 0x61) && code == 2) || op == 0x84
    || op == 0x85)

/-- The checks of R340 in their order, the opcode being assigned, and then what the command does. -/
def State.checked (s : State) (op : Nat) (p : Pkt) (lenOk : Bool) (body : State → Answer) : Answer :=
  if p.flags >>> 1 ≠ 0 then .bad s 3 0xFFFF 0
  else if !lenOk then .bad s 2 0xFFFF 0
  else
    match s.hub.denied op p.t with
    | some d => .bad s 5 0xFFFF d
    | none => if s.hub.wrongPower op p then .bad s 6 0xFFFF 0 else body s

/-- Mbonik carries packets out while it runs, in RUN, MEADOW and VALE (R21, R343). -/
def Hub.serves (h : Hub) (p : Pkt) : Bool := h.mbonik && decide (h.pwr.state < 3 ∧ p.t ≤ 12)

/-- A packet carried out. -/
def State.packet (s : State) (op : Nat) (p : Pkt) (lenOk : Bool) (body : State → Answer) : State :=
  if s.hub.serves p then State.answered op p ((s.mapHub (fun h => h.begun op p)).checked op p lenOk body) else s

/-- A packet with a fixed number of parameter words as a command. -/
def State.command (s : State) (op n : Nat) (p : Pkt) (body : State → Answer) : Host.Outcome State Fault Refusal :=
  .next (s.packet op p (p.params.length == n) body).settle

/-- OK and a bad parameter. (log 96: DEDUCED) -/
def badParam (s : State) (i : Nat) : Answer := .bad s 4 i 0

/-! ### Block access (R341) -/

/-- Base and span of a block by opcode and code. -/
def blockAt (op code : Nat) : Option (Nat × Nat) :=
  if op = 0x06 ∨ op = 0x07 then (if code = 0 then some (0x10000, 0x100) else none)
  else if op = 0x10 ∨ op = 0x11 then (if code = 0 then some (0x80000, 0x4000) else none)
  else if op = 0x20 ∨ op = 0x21 then [(0x40000, 0x10000), (0x50000, 0x10000), (0x60000, 0x10000)][code]?
  else if op = 0x30 ∨ op = 0x31 then [(0x90000, 0x10000), (0xA0000, 0x10000), (0xB0000, 0x10000)][code]?
  else if op = 0x40 ∨ op = 0x41 then [(0x70000, 0x10000), (0xD0000, 0x10000)][code]?
  else if op = 0x50 ∨ op = 0x51 then [(0xE0000, 0x10000), (0xC0000, 0x10000)][code]?
  else if op = 0x60 ∨ op = 0x61 then [(0x20000, 0x10000), (0x30000, 0x10000), (0xF0000, 0x10000)][code]?
  else if op = 0x71 ∨ op = 0x72 then (if code = 0 then some (0x10100, 0x80) else none)
  else if op = 0x80 ∨ op = 0x81 then (if code = 0 then some (0x100000, 0x10000) else none)
  else if op = 0xA6 then (if code = 0 then some (0x120000, 0x4800) else none)
  else none

/-- The status of an offset that a block's table excludes: BAD_PARAM, or DENIED, or none. -/
def excluded (wr : Bool) (base off : Nat) : Option Nat :=
  if base = 0x80000 then (if off < 0x40 then some 4 else none)
  else if base = 0x60000 then (if wr && decide (0x8000 ≤ off) then some 4 else none)
  else if base = 0xA0000 then
    (if wr && decide ((0x1E0 ≤ off ∧ off < 0x1F8) ∨ (0xB00 ≤ off ∧ off < 0xC00)) then some 5 else none)
  else if base = 0xD0000 then (if off < 0x2000 ∧ off % 0x100 < 0x20 then some 4 else none)
  else if base = 0x100000 then (if wr && !(off == 0x000 || off == 0x100 || off == 0x104) then some 4 else none)
  else none

/-- The checks of a block access: base, first offset and count, or the refusal. -/
def blockArgs (wr : Bool) (op : Nat) (p : Pkt) (s : State) : Except Answer (Nat × Nat) :=
  let off := pword p 1
  let c := pword p 2
  if 256 ≤ pword p 0 then .error (badParam s 0)
  else
    match blockAt op (pword p 0) with
    | none => .error (badParam s 0)
    | some (base, span) =>
      if off % 4 ≠ 0 then .error (badParam s 1)
      else if c = 0 ∨ 120 < c then .error (badParam s 2)
      else if span < off + 4 * c then .error (badParam s 1)
      else
        match (List.range c).findSome? (fun i => excluded wr base (off + 4 * i)) with
        | some 5 => .error (.bad s 5 1 3)
        | some _ => .error (badParam s 1)
        | none => .ok (base + off, c)

/-- c registers read in ascending order. -/
def State.readRegs : Nat → Nat → State → List Half × State
  | 0, _, s => ([], s)
  | c + 1, a, s =>
    let (v, s1) := s.fabricRead .col a 4
    let (l, s2) := State.readRegs c (a + 4) s1
    (half2 (BitVec.ofNat 32 v) ++ l, s2)

/-- The BLK_ERR register that governs the register at a place. -/
def errorOf (l : Loc) : Option ErrReg :=
  match l.blk with
  | .layout => some ltErr
  | .sys => if 0x100 ≤ l.off ∧ l.off < 0x180 then some pwrErr else some sysErr
  | .tb => some tbErr
  | .ang => some angErr
  | .ase => some angErr
  | .hch => some hbErr
  | .hbc => some hbErr
  | .mch => some mbErr
  | .mbc => some mbErr
  | .rsm => some rsErr
  | .rsc => some rsErr
  | .rom => some rsErr
  | .recog => some recErr
  | .recc => some recErr
  | .ctx => some (ctxErr l.idx)
  | .tx => some schErr
  | .probe => some schErr
  | .sch => some schErr
  | .sp => some (spErr l.idx)
  | .tw => some (twErr l.idx)
  | .twc => none
  | .hl => some hlErr
  | .eq => some eqErr
  | .eqc => some eqErr
  | .ring => some ringErr
  | .ringc => some ringErr
  | .mac => some (macErr l.idx)
  | .ptp => some ptpErr
  | .rep => some rpErr
  | .sec => some secErr
  | .keys => some secErr
  | .eng => some (engErr l.idx)

/-- Its flags, and those flags cleared. -/
def Hub.errors (h : Hub) (e : ErrReg) : Nat := h.fld e.addr 0 e.mask
def Hub.clearErrors (h : Hub) (e : ErrReg) : Hub := h.setFld e.addr 0 e.mask 0
def Hub.clearAt (h : Hub) (a : Nat) : Hub :=
  match (locate a).bind errorOf with
  | none => h
  | some e => h.clearErrors e

/-- Registers written in ascending order until one is refused; i is the index of the next. -/
def State.writeRegs : List Word → Nat → Nat → State → Answer
  | [], _, _, s => .ok s []
  | v :: r, a, i, s =>
    let s1 := s.fabricWrite .col a 4 v.toNat
    match (locate a).bind errorOf with
    | none => State.writeRegs r (a + 4) (i + 1) s1
    | some e =>
      if s1.hub.errors e ≠ 0 then .bad s1 7 (3 + 2 * i) (s1.hub.fld e.addr 0 16) else State.writeRegs r (a + 4) (i + 1) s1

/-- A block read and a block write. -/
def State.blockGet (op : Nat) (p : Pkt) (s : State) : Answer :=
  match blockArgs false op p s with
  | .error e => e
  | .ok (a, c) => let (l, s1) := State.readRegs c a s
                  .ok s1 l
/-- (log 96: DEDUCED) -/
def State.blockPut (op : Nat) (p : Pkt) (s : State) : Answer :=
  match blockArgs true op p s with
  | .error e => e
  | .ok (a, c) =>
    State.writeRegs ((List.range c).map (fun i => BitVec.ofNat 32 (pnum p (3 + 2 * i) 2))) a 0
      (s.mapHub (fun h => (List.range c).foldl (fun (g : Hub) i => g.clearAt (a + 4 * i)) h))

/-- n matches what the count word of a write implies (R340). -/
def countedOk (p : Pkt) : Bool := decide (3 ≤ p.params.length) && p.params.length == 3 + 2 * pword p 2

/-- A block read or write as a command. -/
def State.blockReading (s : State) (op : Nat) (p : Pkt) : Host.Outcome State Fault Refusal := s.command op 3 p (State.blockGet op p)
def State.blockWriting (s : State) (op : Nat) (p : Pkt) : Host.Outcome State Fault Refusal :=
  .next (s.packet op p (countedOk p) (State.blockPut op p)).settle

def execSysRead (p : Pkt) (s : State) : Host.Outcome State Fault Refusal := s.blockReading 0x06 p
def execSysWrite (p : Pkt) (s : State) : Host.Outcome State Fault Refusal := s.blockWriting 0x07 p
def execCtxRead (p : Pkt) (s : State) : Host.Outcome State Fault Refusal := s.blockReading 0x10 p
def execCtxWrite (p : Pkt) (s : State) : Host.Outcome State Fault Refusal := s.blockWriting 0x11 p
def execBankRead (p : Pkt) (s : State) : Host.Outcome State Fault Refusal := s.blockReading 0x20 p
def execBankWrite (p : Pkt) (s : State) : Host.Outcome State Fault Refusal := s.blockWriting 0x21 p
def execSchRead (p : Pkt) (s : State) : Host.Outcome State Fault Refusal := s.blockReading 0x30 p
def execSchWrite (p : Pkt) (s : State) : Host.Outcome State Fault Refusal := s.blockWriting 0x31 p
def execRecRead (p : Pkt) (s : State) : Host.Outcome State Fault Refusal := s.blockReading 0x40 p
def execRecWrite (p : Pkt) (s : State) : Host.Outcome State Fault Refusal := s.blockWriting 0x41 p
def execRingRead (p : Pkt) (s : State) : Host.Outcome State Fault Refusal := s.blockReading 0x50 p
def execRingWrite (p : Pkt) (s : State) : Host.Outcome State Fault Refusal := s.blockWriting 0x51 p
def execTnRead (p : Pkt) (s : State) : Host.Outcome State Fault Refusal := s.blockReading 0x60 p
def execTnWrite (p : Pkt) (s : State) : Host.Outcome State Fault Refusal := s.blockWriting 0x61 p
def execPwrRead (p : Pkt) (s : State) : Host.Outcome State Fault Refusal := s.blockReading 0x71 p
def execPwrWrite (p : Pkt) (s : State) : Host.Outcome State Fault Refusal := s.blockWriting 0x72 p
def execHltRead (p : Pkt) (s : State) : Host.Outcome State Fault Refusal := s.blockReading 0x80 p
def execHltWrite (p : Pkt) (s : State) : Host.Outcome State Fault Refusal := s.blockWriting 0x81 p
def execEngRead (p : Pkt) (s : State) : Host.Outcome State Fault Refusal := s.blockReading 0xA6 p

/-! ### System (R344) -/

/-- (log 99: DEDUCED) -/
def execPing (p : Pkt) (s : State) : Host.Outcome State Fault Refusal :=
  s.command 0x01 0 p (fun t => .ok t [((t.hub.sec.image.map (fun i => i.version)).getD 0), (t.hub.statusByte p.t).setWidth 16])

/-- TABLE_READ: words of the table from one generation (R49). -/
def State.tableRead (p : Pkt) (s : State) : Answer :=
  let o := pword p 0
  let c := pword p 1
  if 2047 < o then badParam s 0
  else if c = 0 ∨ 246 < c ∨ 2048 < o + c then badParam s 1
  else
    let w (i : Nat) : Half := BitVec.ofNat 16 ((s.hub.layoutWord (i / 2 * 4)).toNat / 2 ^ (16 * (i % 2)))
    .ok s (half2 s.hub.lay.gen ++ (List.range c).map (fun i => w (o + i)))

def execTableRead (p : Pkt) (s : State) : Host.Outcome State Fault Refusal := s.command 0x02 2 p (State.tableRead p)

/-- RESET: the reset itself follows its reply (R344). -/
def State.resetAsked (p : Pkt) (s : State) : Answer :=
  if pword p 0 ≠ 0xA55A then badParam s 0
  else
    .ok (s.mapHub (fun h => h.setHl { h.hl with resetAt := some (p.t, h.now), resetNow := p.flags.getLsbD 0 })) []

def execReset (p : Pkt) (s : State) : Host.Outcome State Fault Refusal := s.command 0x03 1 p (State.resetAsked p)

def execResetCause (p : Pkt) (s : State) : Host.Outcome State Fault Refusal :=
  s.command 0x04 0 p (fun t => .ok t [BitVec.ofNat 16 (t.hub.fld 0x10060 0 3)])

def execIrqStatus (p : Pkt) (s : State) : Host.Outcome State Fault Refusal :=
  s.command 0x05 0 p (fun t => .ok t (BitVec.ofNat 16 t.hub.irqSources ::
    [0x7F000, 0x7F004, 0x7F008, 0x7F00C, 0xEF000, 0xEF004, 0xEF008, 0xEF00C].flatMap (fun a => half2 (t.hub.reg a))))

/-- Lifecycle and debug state as DEVICE_ID codes them. -/
def execDeviceId (p : Pkt) (s : State) : Host.Outcome State Fault Refusal :=
  s.command 0x08 0 p (fun t => .ok t (halves 8 Config.uniqueId.toNat ++ half2 0x12550C5F
    ++ [BitVec.ofNat 16 (0xA1 + t.hub.lc.toNat * 2 ^ 8 + t.hub.sec.dbg.toNat * 2 ^ 12)]))

/-! ### Streams (R345) -/

/-- STATE and CAUSE of a stream as STREAM_START gives them. -/
def Hub.stateWord (h : Hub) (sid : Nat) : Nat := (h.strm sid).state.code + (h.strm sid).cause.toNat * 16

/-- STREAM_START. -/
def State.streamStart (p : Pkt) (s : State) : Answer :=
  let sid := pword p 0
  if sid = 0 ∨ 255 < sid then badParam s 0
  else
    let s1 := s.mapHub (fun h => (h.clearErrors (ctxErr sid)).ctxStart sid)
    let e := s1.hub.errors (ctxErr sid)
    if e.testBit 2 then .bad s1 7 0xFFFF (s1.hub.strm sid).cause.toNat
    else if e.testBit 3 then .bad s1 7 0xFFFF e
    else .ok s1 [BitVec.ofNat 16 (s1.hub.stateWord sid)]

def execStreamStart (p : Pkt) (s : State) : Host.Outcome State Fault Refusal := s.command 0x12 1 p (State.streamStart p)

/-- STREAM_STOP. -/
def State.streamStop (p : Pkt) (s : State) : Answer :=
  let sid := pword p 0
  if sid = 0 ∨ 255 < sid then badParam s 0
  else if 1 < pword p 1 then badParam s 1
  else
    let s1 := s.mapHub (fun h => h.ctxStop sid)
    if pword p 1 = 0 ∨ (s1.hub.strm sid).state = .idle then .ok s1 [BitVec.ofNat 16 (s1.hub.strm sid).state.code]
    else .later (s1.mapHub (fun h => h.setHl { h.hl with stopping := some (p, h.now) }))

/-- A STREAM_STOP that waits: OK once the stream is IDLE, TIMEOUT after 100 ms. -/
def State.stopWaits (p : Pkt) (since : Nat) (s : State) : Answer :=
  let st := (s.hub.strm (pword p 0)).state
  let s1 := s.mapHub (fun h => h.setHl { h.hl with stopping := none })
  if st = .idle then .ok s1 [0]
  else if since + 6400000000 ≤ s.hub.now then .bad s1 0x0E 0xFFFF st.code
  else .later s

def execStreamStop (p : Pkt) (s : State) : Host.Outcome State Fault Refusal :=
  match s.hub.hl.stopping with
  | some (q, since) =>
    if q = p ∧ s.hub.mbonik then .next (State.answered 0x13 p (State.stopWaits p since s)).settle
    else s.command 0x13 2 p (State.streamStop p)
  | none => s.command 0x13 2 p (State.streamStop p)

def execStreamStates (p : Pkt) (s : State) : Host.Outcome State Fault Refusal :=
  s.command 0x14 0 p (fun t => .ok t ((List.range 64).map (fun w =>
    BitVec.ofNat 16 ((List.range 4).foldl (fun n i => n + (if 4 * w + i = 0 then 0 else (t.hub.strm (4 * w + i)).state.code) * 2 ^ (4 * i)) 0))))

/-! ### Banks, scheduling and probes (R346, R347) -/

def execSyncCommand (p : Pkt) (s : State) : Host.Outcome State Fault Refusal :=
  s.command 0x22 0 p (fun t => .ok (t.mapHub (fun h => h.sync (h.portAhead 1))) [])

def execKick (p : Pkt) (s : State) : Host.Outcome State Fault Refusal :=
  s.command 0x32 1 p (fun t => if 127 < pword p 0 then badParam t 0 else .ok (t.mapHub (fun h => h.fallDue (pword p 0))) [])

def execProbeStates (p : Pkt) (s : State) : Host.Outcome State Fault Refusal :=
  s.command 0x33 0 p (fun t => .ok t ((List.range 8).map (fun w =>
    BitVec.ofNat 16 ((List.range 8).foldl (fun n i => n + (t.hub.prb (8 * w + i)).state.code * 2 ^ (2 * i)) 0))))

/-! ### Queues and rings (R348, R349) -/

/-- Pops of queue q while one is ready, at most n: the items and the hub. -/
def Hub.popReady : Nat → Nat → Hub → List (BitVec 128) × Hub
  | 0, _, h => ([], h)
  | n + 1, q, h =>
    let g := h.dropBad q
    if !(g.eqStatus q).getLsbD 9 then ([], g)
    else
      let h1 := g.headPop q false
      let (l, h2) := Hub.popReady n q h1
      (tval 0 h1.hold (0xD0000 + 0x100 * q) :: l, h2)

/-- EQ_POP. -/
def State.eqPop (p : Pkt) (s : State) : Answer :=
  let q := pword p 0
  let n := pword p 1
  if 31 < q then badParam s 0
  else if n = 0 ∨ 30 < n then badParam s 1
  else
    let (l, h) := Hub.popReady n q s.hub
    .ok { s with hub := h } (BitVec.ofNat 16 l.length :: (h.eqStatus q).setWidth 16 :: l.flatMap (fun r => halves 8 r.toNat))

def execEqPop (p : Pkt) (s : State) : Host.Outcome State Fault Refusal := s.command 0x42 2 p (State.eqPop p)

/-- EQ_POST. -/
def State.eqPost (p : Pkt) (s : State) : Answer :=
  let q := pword p 0
  if 31 < q then badParam s 0
  else
    let s1 := s.mapHub (fun h => (h.clearErrors eqErr).eqPush q 128 (BitVec.ofNat 128 (pnum p 1 8)))
    if (s1.hub.errors eqErr).testBit 2 then .bad s1 7 0xFFFF (s1.hub.fld eqErr.addr 0 16) else .ok s1 []

def execEqPost (p : Pkt) (s : State) : Host.Outcome State Fault Refusal := s.command 0x43 9 p (State.eqPost p)

/-- RING_TAKE. -/
def State.ringTake (p : Pkt) (s : State) : Answer :=
  let n := pword p 0
  let m := pword p 1
  if 127 < n then badParam s 0
  else if m = 0 ∨ 30 < m then badParam s 1
  else if !s.hub.ringOn n || s.hub.fld (ringReg n 8) 1 2 != 0 then .bad s 8 0xFFFF 0
  else
    let r := s.hub.ring n
    let k := min m r.fill
    let recs := (List.range k).flatMap (fun i => halves 8 (ofBytes (s.load (s.hub.recordAddr n (r.rd + BitVec.ofNat 32 i)) 16)))
    .ok (s.mapHub (fun h => h.rdWrite n (r.rd + BitVec.ofNat 32 k))) (half2 r.rd ++ [BitVec.ofNat 16 k] ++ recs)

def execRingTake (p : Pkt) (s : State) : Host.Outcome State Fault Refusal := s.command 0x52 2 p (State.ringTake p)

/-! ### Time and power (R350, R351) -/

/-- Extended time (R78): a wrap whose record has still to be formed counts. (log 98: DEDUCED) -/
def Hub.extended (h : Hub) : Nat := (h.tb.wraps.toNat + h.tb.wrapDue.toNat) * 2 ^ 32 + h.ts.toNat

def execTimeNow (p : Pkt) (s : State) : Host.Outcome State Fault Refusal :=
  s.command 0x62 0 p (fun t => .ok t (halves 4 t.hub.extended ++ [(t.hub.tb.acc >>> 16).setWidth 16] ++ halves 3 t.hub.tb.epochS.toNat
    ++ halves 2 t.hub.tb.epochNs.toNat ++ [t.hub.tbStatus.setWidth 16]))

/-- EPOCH_SET: DISARM, NEXT_EPOCH, then ARM or REPAIR. A wrap that has come to pass takes the value already armed. (log 109: DEDUCED) -/
def State.epochSet (p : Pkt) (s : State) : Answer :=
  if 999999999 < pnum p 3 2 then badParam s 3
  else if 1 < pword p 5 then badParam s 5
  else
    let swapped := s.hub.tb.wrapDue && s.hub.tb.armed
    let h1 := (if swapped then s.hub.wrap else s.hub).clearErrors tbErr
    let h2 := h1.tbDisarm.setNext (BitVec.ofNat 48 (pnum p 0 3)) (BitVec.ofNat 30 (pnum p 3 2))
    let h3 := if pword p 5 = 1 then h2.tbRepair else h2.tbArm
    let s1 : State := { s with hub := h3 }
    if (h3.errors tbErr).testBit 3 then .bad s1 7 0xFFFF (h3.fld tbErr.addr 0 16) else .ok s1 [BitVec.ofNat 16 swapped.toNat]

def execEpochSet (p : Pkt) (s : State) : Host.Outcome State Fault Refusal := s.command 0x63 6 p (State.epochSet p)

/-- TINC_SET. (log 98: DEDUCED) -/
def State.tincSet (p : Pkt) (s : State) : Answer :=
  let h1 := (s.hub.clearErrors tbErr).tbWrite 0x008 (BitVec.ofNat 32 (pnum p 0 2))
  let h2 := h1.tbWrite 0x00C (BitVec.ofNat 32 (pword p 2 % 256))
  let h3 := h2.tbCommit
  let s1 : State := { s with hub := h3 }
  if h3.errors tbErr ≠ 0 then .bad s1 7 0xFFFF (h3.fld tbErr.addr 0 16) else .ok s1 []

def execTincSet (p : Pkt) (s : State) : Host.Outcome State Fault Refusal := s.command 0x64 3 p (State.tincSet p)

/-- LTOL_SET: the governor evaluates at the change, which may end an entry, and the status is the one after it (R307, R314, R351). -/
def execLtolSet (p : Pkt) (s : State) : Host.Outcome State Fault Refusal :=
  s.command 0x70 1 p (fun t =>
    let t1 := t.mapHub (fun h => (h.setFld 0x10100 0 16 (pword p 0)).governEvaluate)
    .ok t1 [t1.hub.pwrStatus.setWidth 16])

/-! ### Register and memory (R355), and an opcode that is not assigned -/

/-- The checks of a plain access: address and count, or the refusal. -/
def memArgs (p : Pkt) (s : State) : Except Answer (Nat × Nat) :=
  let a := pnum p 0 2
  let c := pword p 2
  if a % 4 ≠ 0 then .error (badParam s 0)
  else if c = 0 ∨ 120 < c then .error (badParam s 2)
  else
    match (List.range c).find? (fun i => s.hub.blocked (a + 4 * i)) with
    | some i => .error (.bad (s.mapHub (fun h => h.refuse (a + 4 * i))) 5 0 3)
    | none => .ok (a, c)

/-- MEM_READ and MEM_WRITE. -/
def State.memGets (p : Pkt) (s : State) : Answer :=
  match memArgs p s with
  | .error e => e
  | .ok (a, c) => let (l, s1) := State.readRegs c a s
                  .ok s1 l
def State.memPuts (p : Pkt) (s : State) : Answer :=
  match memArgs p s with
  | .error e => e
  | .ok (a, c) => .ok ((List.range c).foldl (fun (t : State) i => t.fabricWrite .col (a + 4 * i) 4 (pnum p (3 + 2 * i) 2)) s) []

def execMemRead (p : Pkt) (s : State) : Host.Outcome State Fault Refusal := s.command 0xB0 3 p (State.memGets p)
def execMemWrite (p : Pkt) (s : State) : Host.Outcome State Fault Refusal := .next (s.packet 0xB1 p (countedOk p) (State.memPuts p)).settle

/-- The opcodes R344 to R355 assign. -/
def assigned (op : Nat) : Bool :=
  (1 ≤ op && op ≤ 8) || (0x10 ≤ op && op ≤ 0x14) || (0x20 ≤ op && op ≤ 0x22) || (0x30 ≤ op && op ≤ 0x33) || (0x40 ≤ op && op ≤ 0x43)
    || (0x50 ≤ op && op ≤ 0x52) || op == 0x60 || op == 0x61 || (0x62 ≤ op && op ≤ 0x64) || (0x70 ≤ op && op ≤ 0x72)
    || (0x80 ≤ op && op ≤ 0x85) || (0x90 ≤ op && op ≤ 0x94) || (0xA0 ≤ op && op ≤ 0xA6) || op == 0xB0 || op == 0xB1

/-- UNKNOWN_OPCODE: the first check of R340. A word 0x00 is filler, and an assigned opcode has a command of its own. -/
def State.unknown (s : State) (op : Nat) (p : Pkt) : State :=
  if op = 0 ∨ assigned op ∨ !s.hub.serves p then s
  else State.answered op p (.bad (s.mapHub (fun h => h.begun op p)) 1 0xFFFF 0)

def execUnknownOpcode (op : Byte) (p : Pkt) (s : State) : Host.Outcome State Fault Refusal := .next (s.unknown op.toNat p).settle

end Sys2Proof.Machine
end

