-- ==== Sys2Proof/Machine/Firmware.lean ====
section
/-! DEFINITION. The health, repair and ageing, the security and debug, and the firmware and task image commands (R352 to R354), with image
checks (R382), task images (R385), debug authentication (R386 to R388) and lifecycle changes (R377, R378). -/

namespace Sys2Proof.Machine

/-! ### Health, repair and ageing (R352) -/

/-- AGE_REPORT. One word of the reply, R124, is named by no register, and its value is free. (log 12: DESIGN CHOICE) (log 97: DEDUCED) -/
def State.ageReport (s : State) : Answer :=
  let h := s.hub
  let two (o n : Nat) : List Half := (List.range n).flatMap (fun i => half2 (h.agRead (o + 4 * i)))
  let one (o n : Nat) : List Half := (List.range n).map (fun i => (h.agRead (o + 4 * i)).setWidth 16)
  let (v, h1) := h.fresh
  .ok { s with hub := h1 } (half2 h.agStatus ++ two 0x140 32 ++ one 0x1C0 16 ++ one 0x200 8 ++ half2 (h.agRead 0x220) ++ two 0x240 16
    ++ [v.setWidth 16] ++ half2 h.rpOtp)

def execAgeReport (p : Pkt) (s : State) : Host.Outcome State Fault Refusal := s.command 0x82 0 p State.ageReport

/-- RETIRE. -/
def State.retireAsked (p : Pkt) (s : State) : Answer :=
  let ty := pword p 0
  let u := pword p 1
  if !([0x10, 0x11, 0x12, 0x42, 0x50].contains ty) then badParam s 0
  else if (if ty = 0x42 then 16 else physicalCount ty) ≤ u then badParam s 1
  else if (if ty = 0x42 then s.hub.bankOut.getLsbD u else s.hub.unitState ty u != 1) then .bad s 8 0xFFFF 0
  else
    let (s1, w) := s.retireUnit ty u
    .ok s1 [BitVec.ofNat 16 w]

def execRetire (p : Pkt) (s : State) : Host.Outcome State Fault Refusal := s.command 0x83 2 p (State.retireAsked p)

/-- RETEST: passed is the outcome of the self-test (R291). -/
def State.retested (p : Pkt) (passed : Bool) (s : State) : Answer :=
  let e := pword p 0
  if 71 < e then badParam s 0
  else if s.hub.unitState 0x50 e ≠ 3 then .bad s 8 0xFFFF 0
  else if passed then .ok (s.mapHub (fun h => h.engPassed e)) [0]
  else .ok s [1]

def execRetest (p : Pkt) (passed : Bool) (s : State) : Host.Outcome State Fault Refusal := s.command 0x84 1 p (State.retested p passed)

/-- Units a SELFTEST tests. -/
def Hub.selfTested (h : Hub) (w : Nat) : List (Nat × Nat) :=
  let of_ (b ty : Nat) : List (Nat × Nat) := if w.testBit b then (h.spareUnits ty).map (fun u => (ty, u)) else []
  of_ 0 0x50 ++ of_ 1 0x10 ++ of_ 1 0x11 ++ of_ 1 0x12

/-- SELFTEST: failed are the units that the self-test finds bad; banks in service count as tested when they are probed. (log 99: DEDUCED) -/
def State.selfTest (p : Pkt) (failed : List UnitId) (s : State) : Answer :=
  let w := pword p 0
  if 7 < w then badParam s 0
  else
    let units := s.hub.selfTested w
    let banks := if w.testBit 2 then ((List.range 16).filter (fun b => !s.hub.bankOut.getLsbD b)).length else 0
    let bad := units.filter (fun u => failed.any (fun f => f.ty == u.1 && f.phys == u.2))
    if units.length + banks = 0 then .bad s 0x0F 0xFFFF 0
    else .ok (bad.foldl (fun (t : State) u => (t.retireUnit u.1 u.2).1) s) (halves 1 (units.length + banks) ++ halves 1 bad.length)

def execSelftest (p : Pkt) (failed : List UnitId) (s : State) : Host.Outcome State Fault Refusal := s.command 0x85 1 p (State.selfTest p failed)

/-! ### Security and debug (R353, R377, R378, R386 to R388) -/

def execSecStatus (p : Pkt) (s : State) : Host.Outcome State Fault Refusal :=
  s.command 0x90 0 p (fun t => .ok t (BitVec.ofNat 16 (t.hub.lc.toNat + t.hub.sec.dbg.toNat * 16) :: halves 4 t.arbCounter))

/-- DBG_CHALLENGE: a new nonce replaces one outstanding. (log 8: DESIGN CHOICE) -/
def State.challenge (s : State) : Answer :=
  let x := s.hub.sec
  .ok (s.mapHub (fun h => h.setSec { x with nonce := some x.drawn, drawn := x.drawn + 1 }))
    (halves 8 (Config.nonce x.drawn).toNat ++ halves 8 Config.uniqueId.toNat)

def execDbgChallenge (p : Pkt) (s : State) : Host.Outcome State Fault Refusal := s.command 0x91 0 p State.challenge

/-- AUTH_FAIL: counted, and LOCKOUT at the eighth (R388). (log 102: DEDUCED) -/
def State.authFail (s : State) : Answer :=
  let x := s.hub.sec
  let n := min 8 (x.fails + 1)
  .bad (s.mapHub (fun h => h.setSec { x with fails := n, lockout := x.lockout || decide (8 ≤ n), nonce := none })) 0x0A 0xFFFF 0

/-- The 33 bytes a response signs (R387). -/
def tokenBytes (nonce lc : Nat) : List Byte := bytesOf 16 Config.uniqueId.toNat ++ bytesOf 16 (Config.nonce nonce).toNat ++ [BitVec.ofNat 8 lc]

/-- DBG_RESPONSE. (log 9: PRESUMED) (log 102: DEDUCED) -/
def State.respond (p : Pkt) (s : State) : Answer :=
  let h := s.hub
  if h.lc = 0 || !s.hashWritten dbgHashOff || h.sec.lockout then s.authFail
  else
    match h.sec.nonce, h.sec.image with
    | none, _ => .bad s 8 0xFFFF 0
    | some _, none => s.authFail
    | some n, some im =>
      if Config.ecdsaVerify im.dbgHash (Config.sha256 (tokenBytes n h.lc.toNat)) (BitVec.ofNat 512 (pnum p 0 32)) then
        .ok (s.mapHub (fun g => g.setSec { g.sec with dbg := 1, fails := 0, nonce := none })) []
      else s.authFail

def execDbgResponse (p : Pkt) (s : State) : Host.Outcome State Fault Refusal := s.command 0x92 32 p (State.respond p)

/-- DBG_CLOSE: the session ends, or FACTORY does (R386, R389). (log 83: DESIGN CHOICE) -/
def Hub.closeDebug (h : Hub) : Hub := Hub.endSession (h.setSec { h.sec with dbg := if h.sec.dbg = 0 then 0 else 1 })

def execDbgClose (p : Pkt) (s : State) : Host.Outcome State Fault Refusal :=
  s.command 0x93 0 p (fun t => .ok (t.mapHub Hub.closeDebug) [])

/-- A lifecycle transition is allowed (R377). -/
def State.mayBecome (s : State) (target : Nat) : Bool :=
  let keys := s.hashWritten (hashOff 0) && s.hashWritten dbgHashOff
  let task := s.hashWritten taskHashOff
  match s.hub.lc.toNat, target with
  | 0, 1 => s.hub.sec.dbg == 2 && keys
  | 0, 2 => s.hub.sec.dbg == 2 && keys && task
  | 1, 2 => task
  | 1, 3 => true
  | 2, 3 => s.hub.sec.dbg == 1
  | _, _ => false

/-- LIFECYCLE_SET: readsBack tells whether the OTP write did (R378). -/
def State.lifecycleSet (p : Pkt) (readsBack : Bool) (s : State) : Answer :=
  if pword p 1 ≠ 0x5AA5 then badParam s 1
  else if s.hub.sec.pend.isSome || !s.mayBecome (pword p 0) then .bad s 8 0xFFFF 0
  else if !readsBack then .bad (s.mapHub (fun h => h.flag secErr 3 0)) 8 0xFFFF 0
  else .ok (s.mapHub (fun h => h.setSec { h.sec with pend := some (BitVec.ofNat 2 (pword p 0)) })) []

def execLifecycleSet (p : Pkt) (readsBack : Bool) (s : State) : Host.Outcome State Fault Refusal :=
  s.command 0x94 2 p (State.lifecycleSet p readsBack)

/-! ### Firmware (R354, R381 to R384) -/

/-- Where the model keeps the staging slot of the boot flash, which is the slot not booted, and the task staging area. (log 101: DEDUCED) -/
def flashBase (h : Hub) : Nat := 0x200000000 + (1 - h.sec.bootSlot) * 0x400000
/-- (log 101: DEDUCED) -/
def taskBase : Nat := 0x400000000

/-- (log 99: DEDUCED) -/
def execFwInfo (p : Pkt) (s : State) : Host.Outcome State Fault Refusal :=
  s.command 0xA0 0 p (fun t =>
    .ok t (((t.hub.sec.image.map (fun i => i.version)).getD 0) :: halves 4 ((t.hub.sec.image.map (fun i => i.arb.toNat)).getD 0)
      ++ halves 1 t.hub.sec.staged))

/-- Data words of a packet from word i on, as bytes. -/
def dataBytesOf (p : Pkt) (i : Nat) : List Byte := bytesOfWords (p.params.drop i)

/-- Bytes of a flash frame that failed: what the flash holds then is open. -/
def Hub.freeBytes : Nat → Hub → List Byte × Hub
  | 0, h => ([], h)
  | n + 1, h =>
    let (v, h1) := h.fresh
    let (l, h2) := Hub.freeBytes n h1
    (v.setWidth 8 :: l, h2)

/-- FW_STAGE: flashOk tells whether the frames succeeded and read back. (log 101: DEDUCED) -/
def State.fwStage (p : Pkt) (flashOk : Bool) (s : State) : Answer :=
  let o := pnum p 0 2
  let bs := dataBytesOf p 2
  if o % 2 ≠ 0 ∨ 0x400000 < o + bs.length then badParam s 0
  else if flashOk then .ok (State.store (s.mapHub (fun h => (h.setSec { h.sec with staged := 1 }).flashFrame)) (flashBase s.hub + o) bs) []
  else
    let (l, h1) := Hub.freeBytes bs.length s.hub
    .bad (State.store { s with hub := (h1.setSec { h1.sec with staged := 1 }).flashFrame } (flashBase s.hub + o) l) 0x0D 0xFFFF 0

def execFwStage (p : Pkt) (flashOk : Bool) (s : State) : Host.Outcome State Fault Refusal :=
  .next (s.packet 0xA1 p (decide (3 ≤ p.params.length ∧ p.params.length ≤ 242)) (State.fwStage p flashOk)).settle

/-- A number in the header of the staged image. -/
def State.header (s : State) (o n : Nat) : Nat := ofBytes (s.load (flashBase s.hub + o) n)

/-- SHA-256 of a key in the header. -/
def State.headerHash (s : State) (o : Nat) : BitVec 256 := Config.sha256 (s.load (flashBase s.hub + o) 64)

/-- The checks of R382 on the staged image of a length in bytes: the status they come to. (log 9: PRESUMED) -/
def State.imageStatus (s : State) (len : Nat) : Nat :=
  let slot := s.header 0x008 1
  let length := s.header 0x00C 4
  let flags := s.header 0x006 2
  let open_ := s.hub.lc = 0 && [0, 1, 2, 3].all (fun k => !s.hashWritten (hashOff k))
  let shape := s.header 0 4 = 0x48564D42 && decide (length ≠ 0 ∧ length % 16 = 0 ∧ length + 512 ≤ 0x400000 ∧ len = length + 512)
    && flags < 4 && slot ≤ 3 && s.header 0x009 3 == 0 && s.header 0x024 12 == 0 && s.header 0x100 192 == 0
  let key := !s.revoked.testBit slot && (s.headerHash 0x040).toNat == s.keyNat (hashOff slot) 32
  let sig := Config.ecdsaVerify (s.headerHash 0x040)
    (Config.sha256 (s.load (flashBase s.hub) 0x1C0 ++ s.load (flashBase s.hub + 512) length)) (BitVec.ofNat 512 (s.header 0x1C0 64))
  let gcm := !flags.testBit 0 || (s.keyNat imgKeyOff 32 != 0
    && Config.gcmOk (BitVec.ofNat 256 (s.keyNat imgKeyOff 32)) (s.load (flashBase s.hub) (512 + length)))
  let same (o k : Nat) : Bool := !s.hashWritten k || (s.headerHash o).toNat == s.keyNat k 32
  if !shape then 0x0B
  else if !open_ && !(key && sig) then 0x0B
  else if 2 ≤ s.hub.lc.toNat && decide (s.header 0x010 8 < s.arbCounter) then 0x0C
  else if !gcm then 0x0B
  else if !open_ && !(same 0x080 dbgHashOff && same 0x0C0 taskHashOff) then 0x0B
  else 0

/-- The selector record that FW_COMMIT writes, which is the one without the larger SEQ, and the SEQ it gets (R402). (log 142: DESIGN CHOICE) -/
def nextSelector (l : List (Option (Nat × Nat))) : Nat × Nat :=
  match (l[0]?).getD none, (l[1]?).getD none with
  | some a, some b => if a.1 < b.1 then (0, (b.1 + 1) % 2 ^ 32) else (1, (a.1 + 1) % 2 ^ 32)
  | some a, none => (1, (a.1 + 1) % 2 ^ 32)
  | none, some b => (0, (b.1 + 1) % 2 ^ 32)
  | none, none => (0, 1)

/-- Where the model keeps selector record k, and its 12 bytes (R402). (log 142: DESIGN CHOICE) -/
def selectorBase (k : Nat) : Nat := 0x200800000 + 0x1000 * k
def selectorBytes (seq slot : Nat) : List Byte := bytesOf 4 seq ++ bytesOf 4 slot ++ bytesOf 4 (crc32 (bytesOf 4 seq ++ bytesOf 4 slot)).toNat

/-- FW_COMMIT: the image is verified, and then the selector record is written; flashOk tells whether its frames succeeded, and a record whose
write failed is spoiled (R402). (log 101: DEDUCED) -/
def State.fwCommit (p : Pkt) (flashOk : Bool) (s : State) : Answer :=
  match s.imageStatus (pnum p 0 2) with
  | 0 =>
    let x := s.hub.sec
    let n := nextSelector x.selectors
    if flashOk then
      .ok (State.store (s.mapHub (fun h => (h.setSec { x with staged := 2, selectors := x.selectors.set n.1 (some (n.2, 1 - x.bootSlot)) }).flashFrame))
        (selectorBase n.1) (selectorBytes n.2 (1 - x.bootSlot))) []
    else
      let (l, h1) := Hub.freeBytes 12 s.hub
      .bad (State.store { s with hub := (h1.setSec { x with selectors := x.selectors.set n.1 none }).flashFrame } (selectorBase n.1) l) 0x0D 0xFFFF 0
  | st => .bad s st 0xFFFF 0

def execFwCommit (p : Pkt) (flashOk : Bool) (s : State) : Host.Outcome State Fault Refusal := s.command 0xA2 2 p (State.fwCommit p flashOk)

/-! ### Task images (R354, R385) -/

/-- TASK_STAGE. -/
def State.taskStage (p : Pkt) (s : State) : Answer :=
  let o := pword p 0
  let bs := dataBytesOf p 1
  if o % 2 ≠ 0 ∨ 24576 < o + bs.length then badParam s 0 else .ok (s.store (taskBase + o) bs) []

def execTaskStage (p : Pkt) (s : State) : Host.Outcome State Fault Refusal :=
  .next (s.packet 0xA3 p (decide (2 ≤ p.params.length ∧ p.params.length ≤ 241)) (State.taskStage p)).settle

/-- A stream that is not IDLE names a task. -/
def Hub.taskInUse (h : Hub) (id : Nat) : Bool :=
  (List.range 256).any (fun sid => sid != 0 && (h.strm sid).state != .idle && h.taskEn sid && h.taskId sid == id)

/-- The slot of an engine that takes a task: the one that holds it, or the first not VALID. (log 100: DEDUCED) -/
def Hub.slotFor (h : Hub) (e id : Nat) : Option Nat :=
  (h.taskSlot e id).orElse (fun _ => (List.range 16).find? (fun k => !h.bit (engReg e (0x80 + 4 * k)) 15))

/-- LIVE and SPARE engines. -/
def Hub.taskEngines (h : Hub) : List Nat := (List.range 72).filter (fun e => h.unitState 0x50 e == 1 || h.unitState 0x50 e == 2)

/-- The image goes into one engine: its code RAM and a slot. (log 100: DEDUCED) -/
def State.installOn (load_ word id : Nat) (bs : List Byte) (s : State) (e : Nat) : State :=
  match s.hub.slotFor e id with
  | none => s
  | some k => State.mapHub (s.store (codeAddr e load_) bs) (fun h => h.setReg (engReg e (0x80 + 4 * k)) (BitVec.ofNat 32 word))

/-- TASK_INSTALL. (log 100: DEDUCED) -/
def State.taskInstall (p : Pkt) (s : State) : Answer :=
  let id := pword p 0
  let entry := pword p 1
  let a := pword p 2
  let n := pword p 3
  let budget := pword p 4
  let bs := s.load taskBase n
  let secure := decide (2 ≤ s.hub.lc.toNat)
  let digest := Config.sha256 (bytesOfWords (p.params.take 5) ++ bs)
  let good := s.hub.sec.image.any (fun im => Config.ecdsaVerify im.taskHash digest (BitVec.ofNat 512 (pnum p 5 32)))
  if 255 < id then badParam s 0
  else if entry < 0x100 ∨ 0x7FFF < entry then badParam s 1
  else if 0x7FFF < a then badParam s 2
  else if 24576 < n ∨ 0x8000 < a + n then badParam s 3
  else if 255 < budget then badParam s 4
  else if secure && !good then .bad s 0x0B 0xFFFF 0
  else if s.hub.taskInUse id then .bad s 8 0xFFFF 0
  else
    let l := s.hub.taskEngines.filter (fun e => (s.hub.slotFor e id).isSome)
    let word := entry + 2 ^ 15 + id * 2 ^ 16 + budget * 2 ^ 24
    .ok (State.mapHub (l.foldl (State.installOn a word id bs) s) (fun h => { h with images := tput h.images id secure })) (halves 1 l.length)

def execTaskInstall (p : Pkt) (s : State) : Host.Outcome State Fault Refusal := s.command 0xA4 37 p (State.taskInstall p)

/-- TASK_REMOVE: no slot of a LIVE or SPARE engine holds the task any more. -/
def State.taskRemove (p : Pkt) (s : State) : Answer :=
  let id := pword p 0
  if 255 < id then badParam s 0
  else if s.hub.taskInUse id then .bad s 8 0xFFFF 0
  else
    .ok (s.mapHub (fun h =>
      let h1 := h.taskEngines.foldl (fun (g : Hub) e =>
        match g.taskSlot e id with
        | none => g
        | some k => g.setBit (engReg e (0x80 + 4 * k)) 15 false) h
      { h1 with images := tdel h1.images id })) []

def execTaskRemove (p : Pkt) (s : State) : Host.Outcome State Fault Refusal := s.command 0xA5 1 p (State.taskRemove p)

end Sys2Proof.Machine
end

