-- ==== Sys2Proof/Machine/Boot.lean ====
section
/-! DEFINITION. Resets (R397 to R399), boot (R400 to R405), and the supplies the hub watches (R421). A boot is one command: what it meets
outside the hub comes with it. -/

namespace Sys2Proof.Machine

/-! ### Resets (R397, R398) -/

/-- RST_STATUS as a reset writes it. -/
def Hub.rstWord (h : Hub) (cause : Nat) (aonLost : Bool) : Word :=
  let n := if aonLost then 0 else satAdd 16 (h.fld 0x10060 16 16) 1
  if aonLost then BitVec.ofNat 32 (cause + 8 + 16 * 2 ^ 4)
  else BitVec.ofNat 32 (cause + h.age.vid % 64 * 2 ^ 4 + h.age.step % 4 * 2 ^ 10 + n * 2 ^ 16)

/-- A reset drives SEN_N high first, and SEL[2:0] to 0b000 one PORT cycle later (R161). -/
def SerialPort.afterReset (x : SerialPort) (now : Nat) : SerialPort :=
  if x.selAt now = 0 then SerialPort.init
  else { SerialPort.init with rise := now, change := now + 160, selOld := x.selAt now, pins := { SerialPort.init.pins with sel := x.selAt now } }

/-- Every block outside the AON domain takes its reset values. OTP, the AON counters, the TAP and what the pins show stay; a lifecycle
change that waited applies (R378). The model's own clock and free values go on. (log 104: DEDUCED) -/
def Hub.resetTo (h : Hub) (cause : Nat) (aonLost : Bool) : Hub :=
  let lc := h.sec.pend.getD h.lc
  let r := Hub.reset
  let ended := h.tap.ended || (h.sec.dbg == 1 && h.tap.ir == 0x10)
  Hub.setReg { r with
    free := h.free, now := h.now, sps := h.sps.foldl (fun l e => tset SerialPort.init l e.1 (e.2.afterReset h.now)) [], supply := h.supply, twBoot := h.twBoot, lc := lc,
    rp := { r.rp with otp := h.rp.otp },
    age := if aonLost then r.age else { r.age with hist := h.age.hist, onFor := h.age.onFor, histFor := h.age.histFor },
    tap := if aonLost then r.tap else { h.tap with copy := none, ended := ended },
    sec := { r.sec with dbg := if lc = 0 then 2 else 0, drawn := h.sec.drawn, arbBad := h.sec.arbBad, bootSlot := h.sec.bootSlot } }
    0x10060 (h.rstWord cause aonLost)

/-- A reset: RAM stays (R15). (log 104: DEDUCED) -/
def State.resetBy (s : State) (cause : Nat) (aonLost : Bool) : State := s.mapHub (fun h => h.resetTo cause aonLost)

def execPowerOnReset (aonLost : Bool) (s : State) : Host.Outcome State Fault Refusal := .next (s.resetBy 1 aonLost)
def execPinReset (s : State) : Host.Outcome State Fault Refusal := .next (s.resetBy 2 false)

/-- WATCHDOG_EXPIRE: with WDT_CTRL.EN at 0 nothing counts (R399). -/
def execWatchdogExpire (s : State) : Host.Outcome State Fault Refusal := .next (if s.hub.bit 0x10064 16 then s.resetBy 3 false else s)
def execCommandReset (s : State) : Host.Outcome State Fault Refusal := .next (s.resetBy 4 false)
def execLockstepMismatch (s : State) : Host.Outcome State Fault Refusal := .next (s.resetBy 5 false)

/-- WDT_KICK (R399). -/
def execWdtKick (by_ : Initiator) (val : Word) (s : State) : Host.Outcome State Fault Refusal := s.run (fun h => h.wdtKick (by_ == .col) val)

/-! ### Repair maps and BIST (R279, R280, R403) -/

/-- A unit that a map or a test retires: the lowest-numbered SPARE takes a live one's place. The unit that did, or 0xFFFF. (log 106: DEDUCED) -/
def Hub.mapRetire (h : Hub) (ty p : Nat) : Hub × Nat :=
  if ty = 0x42 then ({ h with bankOut := h.bankOut ||| BitVec.ofNat 16 (2 ^ p) }, 0xFFFF)
  else if physicalCount ty ≤ p ∨ h.unitState ty p = 3 then (h, 0xFFFF)
  else
    let h1 := h.setUnit ty p 3
    let h2 := if ty = 0x50 then h1.setEng p { h1.eng p with st := .retired } else h1
    match h.logicalOf ty p, h.unitState ty p, h2.spareUnits ty with
    | some n, 1, w :: _ => (h2.serve ty n w, w)
    | _, _, _ => (h2, 0xFFFF)

/-- An entry's check fits (R280). (log 64: DEDUCED) -/
def repairOk (e : BitVec 64) : Bool := (crc8 (bytesOf 6 (e.toNat % 2 ^ 48))).toNat == e.toNat / 2 ^ 48 % 256

/-- One field-repair entry applied. (log 106: DEDUCED) -/
def Hub.applyEntry (h : Hub) (e : BitVec 64) : Hub :=
  let op := e.toNat % 16
  let ty := e.toNat / 2 ^ 4 % 4096
  let u := e.toNat / 2 ^ 16 % 65536
  let a := e.toNat / 2 ^ 32 % 65536
  let skipped : Hub := { h with rp := { h.rp with badChk := h.rp.badChk + 1 } }
  if op = 15 then h
  else if !repairOk e then skipped
  else
    match op with
    | 1 => { h with sramRows := h.sramRows ++ [(u, a)] }
    | 2 => { h with sramCols := h.sramCols ++ [(u, a)] }
    | 3 => (h.mapRetire ty u).1
    | 4 => if ty = 0x50 ∧ h.unitState ty u = 3 then (h.setUnit ty u 2).setEng u { h.eng u with st := .reset } else h
    | _ => skipped

/-- The field-repair area applied in ascending order; an entry with OP 0 ends it. -/
def Hub.applyOtp (h : Hub) : Hub := (h.rp.otp.takeWhile (fun e => e.toNat % 16 != 0)).foldl Hub.applyEntry h

/-- What Mbonik has to record of a test's outcome after READY: an OTP entry, and a SID 0 record's code, type and value (R62, R281, R403). -/
abbrev Outcome_ := BitVec 64 × Nat × Nat × Nat

/-- A unit fails BIST. -/
def testUnit (x : Hub × List Outcome_) (u : UnitId) : Hub × List Outcome_ :=
  if physicalCount u.ty ≤ u.phys ∨ x.1.unitState u.ty u.phys = 3 then x
  else
    let (h, w) := x.1.mapRetire u.ty u.phys
    (h, x.2 ++ [(otpEntry 3 u.ty u.phys 0, 0x1A, u.ty, u.phys + w * 65536)])

/-- A bank without a spare goes out of service. -/
def testBankOut (x : Hub × List Outcome_) (b : Nat) : Hub × List Outcome_ :=
  ((x.1.mapRetire 0x42 b).1, x.2 ++ [(otpEntry 3 0x42 b 0, 0x1A, 0x42, b + 0xFFFF * 65536)])

/-- A faulty SRAM row or column is replaced while its bank has a spare. -/
def testRow (x : Hub × List Outcome_) (r : Nat × Nat) : Hub × List Outcome_ :=
  if 16 ≤ r.1 ∨ x.1.bankOut.getLsbD r.1 ∨ x.1.sramRows.contains r then x
  else if x.1.layoutNow.spareRows r.1 = 0 then testBankOut x r.1
  else ({ x.1 with sramRows := x.1.sramRows ++ [r] }, x.2 ++ [(otpEntry 1 0x42 r.1 r.2, 0x1B, 0x42, r.1 + r.2 * 65536)])
def testCol (x : Hub × List Outcome_) (r : Nat × Nat) : Hub × List Outcome_ :=
  if 16 ≤ r.1 ∨ x.1.bankOut.getLsbD r.1 ∨ x.1.sramCols.contains r then x
  else if x.1.layoutNow.spareCols r.1 = 0 then testBankOut x r.1
  else ({ x.1 with sramCols := x.1.sramCols ++ [r] }, x.2 ++ [(otpEntry 2 0x42 r.1 r.2, 0x1B, 0x42, r.1 + r.2 * 65536)])

/-- BIST with what it finds. -/
def Hub.bist (h : Hub) (b : BootInput) : Hub × List Outcome_ :=
  b.badCols.foldl testCol (b.badRows.foldl testRow (b.badUnits.foldl testUnit (h, [])))

/-- DELAY of group g measured at boot, or its failure (R82). -/
def Hub.calibrate (h : Hub) (trips : List (Option Nat)) (g : Nat) : Hub :=
  match (trips[g]?).getD none with
  | none => h.calFailed g none
  | some r =>
    let d : Int := (r : Int) - (tval 0 h.tb.board g).toNat - (Config.receiverDelay g 0).toNat
    h.setTb { h.tb with delay := tset 0 h.tb.delay g (BitVec.ofInt 12 d), calDone := h.tb.calDone ||| BitVec.ofNat 4 (2 ^ g) }

/-! ### The image (R382, R402) -/

/-- ERR that the checks of R382 on an image come to: 0 none, 4 IMAGE_BAD, 5 ROLLBACK. -/
def State.viewError (s : State) (v : ImageView) : Nat :=
  let open_ := s.hub.lc = 0 && [0, 1, 2, 3].all (fun k => !s.hashWritten (hashOff k))
  let key := !s.revoked.testBit v.slot && v.keyHash.toNat == s.keyNat (hashOff v.slot) 32
  let same (d : BitVec 256) (k : Nat) : Bool := !s.hashWritten k || d.toNat == s.keyNat k 32
  if !v.wellFormed || 3 < v.slot then 4
  else if !open_ && !(key && v.sigOk) then 4
  else if 2 ≤ s.hub.lc.toNat && decide (v.arb.toNat < s.arbCounter) then 5
  else if v.enc && (!v.gcmOk || s.keyNat imgKeyOff 32 == 0) then 4
  else if !open_ && !(same v.dbgHash dbgHashOff && same v.taskHash taskHashOff) then 4
  else 0

/-- SLOT of the valid selector record with the larger SEQ, record 0 if equal. -/
def selector (l : List (Option (Nat × Nat))) : Option Nat :=
  match (l[0]?).getD none, (l[1]?).getD none with
  | some a, some b => some (if a.1 < b.1 then b.2 else a.2)
  | some a, none => some a.2
  | none, some b => some b.2
  | none, none => none

/-- The header of a slot in the first mode that shows one; the flag tells 1S. -/
def headerOf (r : FlashRead × FlashRead) : Option (Bool × ImageView) :=
  match r.1, r.2 with
  | .header v, _ => some (false, v)
  | .noHeader, .header v => some (true, v)
  | .noHeader, .noHeader => none

/-- An image to start: slot, mode and header; or the ERR of the last check that failed, 3 if no header was found. -/
def State.findImage (s : State) (b : BootInput) : Except Nat (Nat × Bool × ImageView) :=
  let first := (((selector b.selectors8).orElse (fun _ => selector b.selectors1)).getD 0) % 2
  let of_ (n : Nat) : FlashRead × FlashRead := if n = 0 then b.slot0 else b.slot1
  let try_ (n err : Nat) : Except Nat (Nat × Bool × ImageView) :=
    match headerOf (of_ n) with
    | none => .error err
    | some (m, v) => match s.viewError v with
      | 0 => .ok (n, m, v)
      | e => .error e
  match try_ first 3 with
  | .ok x => .ok x
  | .error e => try_ (1 - first) e

/-! ### Boot (R400, R404, R405) -/

/-- STAGE and ERR of BOOT_STATUS. -/
def Hub.bootStage (h : Hub) (stage : Nat) : Hub := h.setFld 0x1006C 0 4 stage
def Hub.bootErr (h : Hub) (err : Nat) : Hub := h.setFld 0x1006C 4 4 err

/-- Boot failure: repeated in 1 000 ms (R404). (log 105: DEDUCED) -/
def Hub.bootFails (h : Hub) (stage err : Nat) : Hub := { (h.bootStage stage).bootErr err with retryAt := some (h.now + 64000000000) }

/-- SP0's format 7 as the boot ROM reads the image with it, in 8D-8D-8D or 1S-1S-1S (R159). (log 137: DESIGN CHOICE) -/
def Hub.bootFormat (h : Hub) (oneS : Bool) : Hub :=
  let half := if oneS then 8 else 2
  let phases := if oneS then 8 + 32 * 2 ^ 8 else 16 + 3 * 2 ^ 5 + 2 ^ 7 + 32 * 2 ^ 8 + 3 * 2 ^ 14 + 2 ^ 16 + 20 * 2 ^ 17 + 3 * 2 ^ 22 + 2 ^ 24
  ((h.setFld 0xA01E0 4 8 half).setReg 0xA01E4 (BitVec.ofNat 32 phases)).setReg 0xA01F0 (if oneS then 0x13 else 0xEE11)

/-- Steps 7 and 8: Mbonik runs, and reports READY. -/
def Hub.ready (h : Hub) (b : BootInput) (slot : Nat) (oneS : Bool) (v : ImageView) : Hub :=
  let step := if h.bit 0x10060 3 then 0 else h.fld 0x10060 10 2
  let h1 := { h with
    retryAt := none, mbonik := true, wdt := 0,
    age := { h.age with step := step, since := h.now },
    hl := { h.hl with ready := true, rdy := true, rdySeen := true },
    sec := { h.sec with
      image := some { version := v.version, enc := v.enc, slot := v.slot, revoke := v.revokeLower, arb := v.arb, dbgHash := v.dbgHash,
                      taskHash := v.taskHash },
      arbDue := decide (2 ≤ h.lc.toNat), bootSlot := slot,
      selectors := let l := if (selector b.selectors8).isSome then b.selectors8 else b.selectors1
                   [(l[0]?).getD none, (l[1]?).getD none] } }
  let h2 := h1.setEng 72 { h1.eng 72 with sr := 0 }
  let h3 := (((h2.bootStage 8).setBit 0x1006C 8 oneS).setFld 0x1006C 9 1 slot).setFld 0x1006C 16 16 b.readyMs.toNat
  (h3.bootFormat oneS).layoutBuild

/-- Steps 5 to 8. -/
def State.bootImage (s : State) (b : BootInput) : State :=
  match s.findImage b with
  | .ok (slot, m, v) => s.mapHub (fun h => h.ready b slot m v)
  | .error e => s.mapHub (fun h => h.bootFails (if e = 3 then 5 else 6) e)

/-- Steps 1 to 4: TS runs from the first TIME lock, and schedule epochs count from there. (log 105: DEDUCED) -/
def Hub.bootStart (h : Hub) (b : BootInput) : Hub × List Outcome_ :=
  let ticks := b.lockTicks % 2 ^ 29
  let vid := if h.bit 0x10060 3 then 16 else max 16 (h.fld 0x10060 4 6)
  let h1 := { h with
    now := h.now + ticks * 256,
    tb := { h.tb with lock := true, acc := BitVec.ofNat 64 (ticks * 0x400000000), epochPhase := ticks * 256 % 64000000,
                      epochs := h.tb.epochs + ticks / 250000, beat := ticks % 5 },
    age := { h.age with vid := vid, plan := vid, back := vid, step := 3, onFor := h.age.onFor + ticks * 256,
                        histFor := h.age.histFor + ticks * 256 } }
  let h2 := if b.otpBad then h1.bootErr 1 else h1
  let h3 := match h2.twBoot with
    | none => h2
    | some w => ((h2.setFld (twReg (w.toNat % 8) 0x080) 0 7 (w.toNat / 256 % 128)).setBit (twReg (w.toNat % 8) 0x080) 8 true).tgtEnable
        (w.toNat % 8) true
  let (h4, out) := h3.applyOtp.bist b
  let h5 := [0, 1, 2, 3].foldl (fun (g : Hub) k => g.calibrate b.roundTrip k) h4
  (h5.setTb { h5.tb with measures := 1 }, out)

/-- Outcomes of BIST that Mbonik records (R403). -/
def Hub.report (h : Hub) (out : List Outcome_) : Hub :=
  out.foldl (fun (g : Hub) o => (g.otpDue o.1).sysRecord o.2.1 o.2.2.1 (BitVec.ofNat 40 o.2.2.2)) h

/-- A reset has ended and no boot has run yet. -/
def Hub.unbooted (h : Hub) : Bool := !h.hl.ready && h.retryAt.isNone

/-- BOOT (R400). -/
def State.boot (s : State) (b : BootInput) : State :=
  if !s.hub.unbooted then s
  else
    let (h, out) := s.hub.bootStart b
    let s1 : State := { s with hub := h }
    if b.colRamBad then s1.mapHub (fun g => (g.bootFails 4 2).report out)
    else (s1.bootImage b).mapHub (fun g => g.report out)

/-- (log 115: DESIGN CHOICE) -/
def execBoot (b : BootInput) (s : State) : Host.Outcome State Fault Refusal := .next (s.boot b).settle

/-- BOOT_RETRY: boot is repeated from step 5, and counted (R404). (log 105: DEDUCED) -/
def execBootRetry (b : BootInput) (s : State) : Host.Outcome State Fault Refusal :=
  if s.hub.retryAt.isNone then .next s else .next (State.bootImage (s.mapHub (fun h => h.bump 0x1006C 12 4 1)) b).settle

/-! ### Supplies (R421) -/

/-- The place of a rail in the hub's account of what is out of range, and its SUP_STATUS bit. -/
def railPlace (r : Rail) : Nat :=
  match r with
  | .vddioB => 0
  | .vddSd => 1
  | .vddPll => 2
  | .vddhSd => 4
def railBit (r : Rail) : Nat := if r = .vddhSd then 1 else railPlace r

/-- Something leaves its range: its SUP_STATUS bit, and the HEALTH event. -/
def Hub.outOfRange (h : Hub) (place flag_ : Nat) : Hub :=
  (Hub.setBit { h with supply := h.supply ||| BitVec.ofNat 5 (2 ^ place) } 0x10070 flag_ true).health 0x0001 0 flag_ 1

/-- SUPPLY_LOW. Inputs of VDDIO_B then read low. (log 107: DEDUCED) -/
def Hub.supplyLow (h : Hub) (r : Rail) : Hub :=
  let h1 := h.outOfRange (railPlace r) (railBit r)
  match r with
  | .vddioB => h1.setAng { h1.ang with angLevel := 0, trgLevel := 0 }
  | .vddSd => [0, 1].foldl Hub.linkDown h1
  | .vddhSd => [0, 1].foldl Hub.linkDown h1
  | .vddPll => h1.refclkLoss

def execSupplyLow (r : Rail) (s : State) : Host.Outcome State Fault Refusal := s.run (fun h => h.supplyLow r)

/-- SUPPLY_RESTORE: the rail has been in range for 1 ms. -/
def execSupplyRestore (r : Rail) (s : State) : Host.Outcome State Fault Refusal :=
  s.run (fun h => { h with supply := h.supply &&& ~~~ (BitVec.ofNat 5 (2 ^ railPlace r)) })

/-- XTAL_LOST: the divided oscillator takes the crystal's place. -/
def execXtalLost (s : State) : Host.Outcome State Fault Refusal := s.run (fun h => h.outOfRange 3 3)

/-- XTAL_RETURN: its first edge. -/
def execXtalReturn (s : State) : Host.Outcome State Fault Refusal :=
  s.run (fun h => { h with supply := h.supply &&& ~~~ (BitVec.ofNat 5 (2 ^ 3)) })

end Sys2Proof.Machine
end

