-- ==== Sys2Proof/Machine/IcevoFabric.lean ====
section
/-! DEFINITION. The Icevo instructions that reach the fabric through a window: POST, FETCH, LDR, STC, COLLECT and CPYF (R244 to R248,
R277). -/

namespace Sys2Proof.Machine

/-- The outbound queue of engine e is full (R237, R245). (log 58: DEDUCED) -/
def Hub.queueFull (h : Hub) (e : Nat) : Bool := decide (4 ≤ (h.outq.filter (fun q => q.1 == e)).length)

/-- The fabric byte address of a window request (R244). -/
def Engine.windowAddr (x : Engine) (w ea : Nat) : Nat := (tval 0 x.win w).toNat * 0x10000 + 2 * (ea % 32768)

/-- A write of the live engine of a pair enters the witness's log, until a mismatch freezes it (R285). -/
def Hub.logWrite (h : Hub) (e : Nat) (r : EngReq) : Hub :=
  if h.pair.any (fun p => p.1 == e) && (h.shd 3).phase == 2 then
    h.setPair (fun x => let (l, o) := logMore x.wit.log r.written x.wit.full
                        { x with wit := { x.wit with log := l, full := o } })
  else h

/-- A write of a third opinion is captured and not issued (R286). -/
def Hub.thirdWrites (h : Hub) (e : Nat) (r : EngReq) : Hub :=
  h.setPair (fun x => { x with third := x.third.map (fun t =>
    if t.eng = e then let (l, o) := logMore t.log r.written t.full
                      { t with log := l, full := o }
    else t) })

/-- A request is issued. -/
def State.issue (s : State) (e : Nat) (r : EngReq) : State :=
  s.mapHub (fun h =>
    if (h.eng e).run.any (fun x => x.entry.third) && !r.written.isEmpty then h.thirdWrites e r
    else { h.logWrite e r with outq := h.outq ++ [(e, r)] })

/-- A request's address, and the engine with its base updated; or the base that traps ADDRESS: BREV, or a word address that is no
multiple of the count (R244, R269). (log 58: DEDUCED) -/
def Engine.request (x : Engine) (p : Pfx) (w : Nat) (m : MByte) (d : Byte) : Option (Nat × Engine) :=
  match x.access p m d.toInt with
  | none => none
  | some (ea, y) => if ea % 32768 % mCount m = 0 then some (x.windowAddr w ea, y) else none

/-- The address lies in the commons (R247). -/
def inCommons (a : Nat) : Bool := decide (commonsBase ≤ a ∧ a < commonsBase + 0x40000)

/-- The counts a window request takes. -/
def windowCount (m : MByte) : Bool := [1, 2, 4, 8].contains (mCount m)

/-- POST (R245). -/
def State.post (s : State) (e : Nat) (p : Pfx) (w : Nat) (m : MByte) (d : Byte) : Eff :=
  let x := s.hub.eng e
  match x.request p w m d with
  | none => .trap s 5 (mBase m)
  | some (a, y) =>
    if s.hub.queueFull e then .trap s 8 4
    else
      .done (State.issue (s.mapHub (fun h => h.setEng e { y with stack := y.stack.drop (mCount m) })) e
        (.write a ((topWords (mCount m) x.stack).map some)))

def execPost (e : Nat) (p : Pfx) (w : BitVec 2) (m : MByte) (d : Byte) (s : State) : Host.Outcome State Fault Refusal :=
  s.insn e p { insn 3 1 (mCount m) 0 with addrOk := true, legal := windowCount m && countOk (mCount m) p.addr }
    (fun t => t.post e p w.toNat m d)

/-- A read issued into a window's slot. (log 58: DEDUCED) -/
def State.issueRead (s : State) (e : Nat) (y : Engine) (w a k : Nat) : State :=
  State.issue (s.mapHub (fun h => h.setEng e
    { y with slots := tput y.slots w { addr := a, count := k, data := none, arrived := false, bad := false } })) e (.read w a k)

/-- FETCH (R245). -/
def State.fetchWords (s : State) (e : Nat) (p : Pfx) (w : Nat) (m : MByte) (d : Byte) : Eff :=
  let x := s.hub.eng e
  match x.request p w m d with
  | none => .trap s 5 (mBase m)
  | some (a, y) =>
    if (tget x.slots w).isSome then .trap s 8 w
    else if s.hub.queueFull e then .trap s 8 4
    else .done (s.issueRead e y w a (mCount m))

def execFetch (e : Nat) (p : Pfx) (w : BitVec 2) (m : MByte) (d : Byte) (s : State) : Host.Outcome State Fault Refusal :=
  s.insn e p { insn 3 1 0 0 with addrOk := true, legal := windowCount m && countOk (mCount m) p.addr }
    (fun t => t.fetchWords e p w.toNat m d)

/-- LDR: requests issued before it reach their targets first, and the reservation passes to this engine (R247, R248). -/
def State.loadReserved (s : State) (e : Nat) (p : Pfx) (w : Nat) (m : MByte) (d : Byte) : Eff :=
  let x := s.hub.eng e
  match x.request p w m d with
  | none => .trap s 5 (mBase m)
  | some (a, y) =>
    if !inCommons a then .trap s 5 (mBase m)
    else if (tget x.slots w).isSome then .trap s 8 w
    else if s.hub.queueFull e then .trap s 8 4
    else
      let s1 := State.mapHub (State.drainRequests s) (fun h => h.endReservations (a / 8 * 8) e)
      let z := s1.hub.eng e
      .done (s1.issueRead e { z with b := y.b, res := some (a / 8 * 8) } w a 4)

def execLdr (e : Nat) (p : Pfx) (w : BitVec 2) (m : MByte) (d : Byte) (s : State) : Host.Outcome State Fault Refusal :=
  s.insn e p { insn 3 1 0 0 with addrOk := true, legal := mCount m == 4 && countOk (mCount m) p.addr }
    (fun t => t.loadReserved e p w.toNat m d)

/-- STC: the words leave the stack, and the reservation ends, whether or not they are written (R247). -/
def State.storeConditional (s : State) (e : Nat) (p : Pfx) (w : Nat) (m : MByte) (d : Byte) (pd : Nat) : Eff :=
  let x := s.hub.eng e
  match x.request p w m d with
  | none => .trap s 5 (mBase m)
  | some (a, y) =>
    let held := x.res == some (a / 8 * 8)
    if !inCommons a then .trap s 5 (mBase m)
    else if held && s.hub.queueFull e then .trap s 8 4
    else
      let s1 := s.mapHub (fun h => h.setEng e (Engine.setP { y with stack := y.stack.drop (mCount m), res := none } pd held))
      .done (if held then s1.issue e (.write a ((topWords (mCount m) x.stack).map some)) else s1)

def execStc (e : Nat) (p : Pfx) (w : BitVec 2) (m : MByte) (d : Byte) (pd : BitVec 3) (s : State) : Host.Outcome State Fault Refusal :=
  s.insn e p { insn 4 3 (mCount m) 0 with addrOk := true, legal := [1, 2, 4].contains (mCount m) && countOk (mCount m) p.addr }
    (fun t => t.storeConditional e p w.toNat m d pd.toNat)

/-- COLLECT (R246, R272). -/
def State.collect (s : State) (e w pd : Nat) : Eff :=
  let x := s.hub.eng e
  let absent : Eff := .done (s.mapHub (fun h => h.setEng e (x.setP pd false)))
  match tget x.slots w with
  | none => absent
  | some t =>
    if !t.arrived then absent
    else if t.bad then .trap (s.mapHub (fun h => h.setEng e { x with slots := tdel x.slots w })) 9 w
    else if 16 < x.stack.length + t.count then .trap s 3 (x.stack.length + t.count - 16)
    else
      .done (s.mapHub (fun h => h.setEng e
        (Engine.setP { x with slots := tdel x.slots w, stack := pushWords (t.data.getD []) x.stack } pd true)))

def execCollect (e : Nat) (p : Pfx) (w : BitVec 2) (pd : BitVec 3) (s : State) : Host.Outcome State Fault Refusal :=
  s.insn e p (insn 2 2 0 0) (fun t => t.collect e w.toNat pd.toNat)

/-- The words a CPYF has gathered leave as one masked request of their group of 8 window words (R277). -/
def issueGathered (e w : Nat) (k : Pack) (s : State) : State :=
  match k with
  | [] => s
  | (a, _) :: _ =>
    s.issue e (.write ((s.hub.eng e).windowAddr w (a / 8 * 8))
      ((List.range 8).map (fun i => (k.find? (fun g => g.1 == a / 8 * 8 + i)).map (fun g => g.2))))

/-- Within one REP a full queue has drained before an element, or it has not: a free value says which (R239, R277). (log 94: DESIGN CHOICE) -/
def State.drainMaybe (s : State) (e : Nat) : State :=
  if s.hub.queueFull e then
    let (v, h) := s.hub.fresh
    let t : State := { s with hub := h }
    if v.getLsbD 0 then t.drainRequests else t
  else s

/-- The element of CPYF: a queue that is full at its start traps WIN_BUSY (R277). -/
def cpyfElement (e w : Nat) (first last : Bool) (k : Pack) (s : State) : Element :=
  let x := s.hub.eng e
  let s0 := if first then s else s.drainMaybe e
  if !dataOk e (x.base 4) 1 then .bad (issueGathered e w k s0) 5 4
  else if s0.hub.queueFull e then .bad s0 8 4
  else
    let a := x.base 5 % 32768
    let k1 := k ++ [(a, s0.dataWord e (x.base 4))]
    let s1 := s0.mapHub (fun h => h.setEng e (h.eng e).stepString)
    if a % 8 = 7 || last then .ok (issueGathered e w k1 s1) [] else .ok s1 k1

def execCpyf (e : Nat) (p : Pfx) (w : BitVec 2) (s : State) : Host.Outcome State Fault Refusal :=
  s.string e p (insn 2 3 0 0) (cpyfElement e w.toNat) (issueGathered e w.toNat)

end Sys2Proof.Machine
end

