-- ==== Sys2Proof/Machine/Tap.lean ====
section
/-! DEFINITION. The test access port (R407 to R416): instructions at Update-IR with their refusals, and the data registers. -/

namespace Sys2Proof.Machine

/-- The TAP set. -/
def Hub.setTap (h : Hub) (t : Tap) : Hub := { h with tap := t }

/-- Update-IR accepts a code, or refuses and loads BYPASS in its place (R410). -/
def Hub.irLoad (h : Hub) (code : Byte) : Hub := h.setTap { h.tap with ir := code, refused := false }
def Hub.irRefuse (h : Hub) : Hub := h.setTap { h.tap with ir := 0xFF, refused := true }

/-- TAP_RESET: Test-Logic-Reset loads IDCODE (R407). (log 108: DEDUCED) -/
def execTapReset (s : State) : Host.Outcome State Fault Refusal := s.run (fun h => h.setTap { h.tap with ir := 0x02 })

/-- CAPTURE_IR (R410). -/
def execCaptureIr (s : State) : Host.Outcome State Fault Refusal :=
  s.run (fun h => h.setTap { h.tap with capture := BitVec.ofNat 8 (1 + h.tap.refused.toNat * 4 + h.pwr.state * 16) })

/-- The balls may be driven from the update stage (R411). -/
def Hub.pinsFree (h : Hub) : Bool := decide (h.pwr.state < 2) && !(h.pwr.entering && decide (1 < h.pwr.target))

/-- An instruction that drives the balls. -/
def Hub.irDrive (h : Hub) (code : Byte) : Hub := if h.pinsFree then h.irLoad code else h.irRefuse

def execExtest (s : State) : Host.Outcome State Fault Refusal := s.run (fun h => h.irDrive 0x00)
def execSamplePreload (s : State) : Host.Outcome State Fault Refusal := s.run (fun h => h.irLoad 0x01)
def execIdcode (s : State) : Host.Outcome State Fault Refusal := s.run (fun h => h.irLoad 0x02)
def execClamp (s : State) : Host.Outcome State Fault Refusal := s.run (fun h => h.irDrive 0x03)
def execHighz (s : State) : Host.Outcome State Fault Refusal := s.run (fun h => h.irLoad 0x04)
def execHealthrd (s : State) : Host.Outcome State Fault Refusal := s.run (fun h => h.irLoad 0x11)

/-- BYPASS: its own code, or one that is not assigned (R409). (log 108: DEDUCED) -/
def execBypass (code : Byte) (s : State) : Host.Outcome State Fault Refusal :=
  if [0x00, 0x01, 0x02, 0x03, 0x04, 0x10, 0x11].contains code then .next s else s.run (fun h => h.irLoad 0xFF)

/-- A debug session is open, FACTORY counting as one, and the power state has a fabric path (R391, R392). -/
def Hub.debugOpen (h : Hub) : Bool := h.sec.dbg != 0 && decide (h.pwr.state < 3)

def execDbgacc (s : State) : Host.Outcome State Fault Refusal :=
  s.run (fun h => if h.debugOpen then (h.irLoad 0x10).setTap { (h.irLoad 0x10).tap with ended := false } else h.irRefuse)

/-- The engine whose page or window an address lies in, stopped in VALE (R392). -/
def Hub.stoppedEngine (h : Hub) (a : Nat) : Bool :=
  let e := if 0x120000 ≤ a ∧ a < 0x124800 then some ((a - 0x120000) / 0x100)
    else if windowBase ≤ a ∧ a < windowBase + 0x480000 then some ((a - windowBase) / 0x10000) else none
  h.pwr.state == 2 && e.any (fun n => !h.openEngines.contains n)

/-- DBGACC_UPDATE: dr is OP, ADDR and WDATA (R390, R392, R414). (log 108: DEDUCED) -/
def State.debugAccess (s : State) (dr : BitVec 66) : State :=
  let op := dr.toNat / 2 ^ 64
  let a := dr.toNat / 2 ^ 32 % 2 ^ 32
  let bad (h : Hub) : Hub := h.setTap { h.tap with err := true }
  if s.hub.tap.ir ≠ 0x10 ∨ op = 0 then s
  else if op = 3 ∨ a % 4 ≠ 0 ∨ s.hub.tap.ended ∨ !s.hub.debugOpen then s.mapHub bad
  else
    let err := s.hub.blocked a || regionOf a == .unmapped
    if s.hub.stoppedEngine a then
      s.mapHub (fun h => h.setTap { h.tap with addr := BitVec.ofNat 32 a, err := err, data := if op = 1 then 0 else h.tap.data })
    else if op = 1 then
      let (v, s1) := s.fabricRead .debug a 4
      s1.mapHub (fun h => h.setTap { h.tap with addr := BitVec.ofNat 32 a, err := err, data := BitVec.ofNat 32 v })
    else
      (s.fabricWrite .debug a 4 (dr.toNat % 2 ^ 32)).mapHub (fun h => h.setTap { h.tap with addr := BitVec.ofNat 32 a, err := err })

def execDbgaccUpdate (dr : BitVec 66) (s : State) : Host.Outcome State Fault Refusal := .next (s.debugAccess dr).settle

/-- The words of HEALTHRD: the copy in HOLLOW and BASIN, zeros during the internal reset; RST_STATUS is always live (R415). (log 108: DEDUCED) -/
def State.healthReg (s : State) : BitVec 256 :=
  let snap := s.hub.tap.copy.isSome && decide (3 ≤ s.hub.pwr.state)
  let l := if snap then s.hub.tap.copy.getD [] else if !s.hub.hl.ready && s.hub.retryAt.isNone then [] else s.healthWords
  let w (i : Nat) : Nat := (l.getD i 0).toNat
  BitVec.ofNat 256 (w 0 + (s.hub.reg 0x10060).toNat * 2 ^ 32 + w 1 * 2 ^ 64 + w 2 * 2 ^ 96 + w 3 * 2 ^ 128 + w 4 * 2 ^ 160 + w 5 * 2 ^ 192
    + snap.toNat * 2 ^ 224 + w 6 * 2 ^ 225)

/-- HEALTHRD_CAPTURE. -/
def execHealthrdCapture (s : State) : Host.Outcome State Fault Refusal :=
  s.run (fun h => if h.tap.ir = 0x11 then h.setTap { h.tap with health := s.healthReg } else h)

/-- BOUNDARY_UPDATE: the update stage, while an instruction selects the boundary register (R409, R416). -/
def execBoundaryUpdate (cells : BitVec 742) (s : State) : Host.Outcome State Fault Refusal :=
  s.run (fun h => if h.tap.ir = 0x00 ∨ h.tap.ir = 0x01 then h.setTap { h.tap with cells := cells } else h)

end Sys2Proof.Machine
end

