-- ==== Sys2Proof/Machine/Idle.lean ====
section
/-! DEFINITION. What the hub does of itself while no command waits (log 1): a tick of the clock that TS counts passes, and the commands that have
come due join the queue. A command that carries what the world outside decides is never due here: it comes from outside. -/

namespace Sys2Proof.Machine

/-! ### One tick (R26, R70, R84, R316) -/

/-- What the next tick takes in 1/64 ns, and what TS gains: a TIME tick, an oscillator cycle in holdover, a crystal cycle in BASIN; before the
first lock TS stands. (log 15: DESIGN CHOICE) -/
def Hub.tickStep (h : Hub) : Nat × BitVec 64 :=
  if h.tb.onCrystal then (if h.supply.getLsbD 3 then 1952000 else 1953125, h.tincAon)
  else if h.tb.holdover then (4000, 0x3E80000000)
  else if h.tb.lock then (256, h.tinc)
  else (256, 0)

/-- When the first beat began that a port still has to stamp from. -/
def Hub.oldestBeat (h : Hub) : Nat :=
  let sp := (h.sps.filter (fun e => e.2.phase != .idle)).map (fun e => e.2.at_)
  let tw := (h.tws.filter (fun e => e.2.phase != .idle)).map (fun e => e.2.at_)
  (sp ++ tw).foldl min h.now

/-- The stretches of TIME ticks from the newest to the one that holds a time. -/
def linesFrom (u : Nat) : List TimeLine → List TimeLine
  | [] => []
  | l :: r => if l.at_ ≤ u then [l] else l :: linesFrom u r

/-- A TIME tick goes on in the stretch under way, or begins a new one where TINC has changed (R84). -/
def Hub.stretch (h : Hub) (inc : BitVec 64) : List TimeLine :=
  let new : TimeLine := { at_ := h.now, acc := h.tb.acc, inc := inc }
  match h.tb.lines with
  | [] => [new]
  | l :: r => if l.inc = inc then l :: r else new :: linesFrom h.oldestBeat (l :: r)

/-- TS, its wraps, the beat and the epoch's phase move on by one tick; a coarse set that waits acts, and no wrap is counted in its tick (R73,
R74, R183). (log 15: DESIGN CHOICE) (log 17: DEDUCED) -/
def Hub.clockTick (h : Hub) : Hub :=
  let (dt, inc) := h.tickStep
  let t := h.tb
  let set := if t.lock then t.setPend else none
  let acc : BitVec 64 := match set with
    | some ts => ts ++ (0 : Word)
    | none => t.acc + inc
  let phase := if t.onCrystal || !(t.lock || t.holdover) then t.epochPhase else t.epochPhase + dt
  { h with
    now := h.now + dt,
    tb := { t with
      acc := acc, lines := if t.lock then h.stretch inc else [], beat := if t.lock then (t.beat + 1) % 5 else t.beat,
      wrapDue := t.wrapDue || (set.isNone && t.acc.msb && !acc.msb), halfDue := t.halfDue || (set.isNone && !t.acc.msb && acc.msb),
      epochPhase := phase % 64000000, epochDue := t.epochDue || decide (64000000 ≤ phase),
      setPend := if t.lock then none else t.setPend, setDone := t.setDone || set.isSome,
      armed := t.armed && set.isNone, epochValid := t.epochValid && set.isNone } }

/-- An accepted REPAIR acts at the TIME tick (R77), before the wrap of that tick if there is one, and is undone by a coarse set in it. (log 17: DEDUCED) -/
def Hub.repairNow (h : Hub) (was : TimeBase) : Hub :=
  if was.lock && h.tb.repairPend then
    let g := (h.setTb { h.tb with repairPend := false }).epochSwap
    g.setTb { g.tb with armed := h.tb.armed, epochValid := was.setDone == h.tb.setDone }
  else h

/-- A decoded edge, and a run of them, moved by a jump of TS. -/
def Mark.moved (m : Mark) (d : Instant) : Mark := { m with t := m.t + d }
def Course.moved (c : Course) (d : Instant) : Course :=
  { c with marks := c.marks.map (fun m => m.moved d), start := c.start.map (fun t => t + d), stop := c.stop.map (fun t => t + d),
           zeros := c.zeros.map (fun z => (z.1 + d, z.2)) }

/-- A window whose edges are moved by a jump of TS. -/
def Window.moved (w : Window) (d : BitVec 64) : Window :=
  { w with open_ := { w.open_ with tick := w.open_.tick + d }, close := w.close.map (fun e => { e with tick := e.tick + d }) }

/-- Every instant held of what no record states yet, moved by a jump of TS, so that every record formed after the jump is stamped from the new
value (R73). (log 17: DEDUCED) -/
def Hub.rebase (h : Hub) (j : BitVec 64) : Hub :=
  let d := accInstant j
  let smp (s : Nat × Sample) : Nat × Sample := (s.1, { s.2 with instant := s.2.instant + d })
  let opt (t : Option Instant) : Option Instant := t.map (fun x => x + d)
  let c := h.ang.crank
  { h with
    tb := { h.tb with lines := h.tb.lines.map (fun l => { l with acc := l.acc + j }) },
    streams := h.streams.map (fun e => (e.1, if e.2.slots.isEmpty then e.2 else { e.2 with t0 := e.2.t0 + d })),
    handoff := h.handoff.map smp,
    winEdges := h.winEdges.map (fun e => (e.1, e.2.1, { e.2.2 with tick := e.2.2.tick + j })),
    ang := { h.ang with
      crank := { c with last := opt c.last, rise := opt c.rise, held := opt c.held, run := c.run.moved d, olds := c.olds.map (fun o => o.moved d) },
      dist := h.ang.dist.map (fun e => (e.1, { e.2 with last := opt e.2.last, run := e.2.run.moved d, olds := e.2.olds.map (fun o => o.moved d) })) },
    groups := h.groups.map (fun e => (e.1, { e.2 with runs := e.2.runs.map (fun r => { r with acc := r.acc + j }) })),
    ms := h.ms.map (fun e => (e.1, { e.2 with ins := e.2.ins.map (fun i => { i with t := i.t + d }), after := opt e.2.after,
                                              fifo := e.2.fifo.map (fun i => (i.1 + d, i.2)) })),
    rs := h.rs.map (fun e => (e.1, { e.2 with hist := e.2.hist.map (fun i => { i with t := i.t + d }), lastT := opt e.2.lastT })),
    lastSync := opt h.lastSync,
    recs := h.recs.map (fun e => (e.1, { e.2 with opened := e.2.opened.map (fun w => w.moved j), settling := e.2.settling.map (fun w => w.moved j) })),
    rp := { h.rp with shadows := h.rp.shadows.map (fun e => (e.1, { e.2 with
      outs := e.2.outs.map (fun o => { o with t := o.t + d }), smps := e.2.smps.map (fun s => (s.1, s.2.map (fun x => (smp (0, x)).2))) })) } }

/-- After a coarse set held instants move with TS (R73), TIME schedule entries are judged again, and TIME transaction entries are armed anew (R108,
R185). -/
def Hub.afterSet (h : Hub) (jump : BitVec 64) : Hub :=
  let g := (h.rebase jump).rejudgeTime
  let g1 := g.setAng { g.ang with lastPos := tput g.ang.lastPos 0 (g.tb.acc.toNat / 2 ^ 16) }
  (g1.tx.filter (fun e => e.2.due.isSome)).foldl (fun (k : Hub) e => k.armTime e.1) g1

/-- What acts at a TIME tick: DISARM_ALL, arming and ZERO (R99, R103, R440). In holdover and BASIN none occurs (R72). -/
def Hub.timeTables (h : Hub) : Hub :=
  let h1 := h.disarmNow
  let h2 := (h1.ang.ase.filter (fun e => e.2.arming)).foldl (fun (g : Hub) e => g.armAse e.1) h1
  (h2.ang.dist.filter (fun e => e.2.zeroDue)).foldl (fun (g : Hub) e =>
    if g.pwr.state < 3 then g.distZero e.1 g.instant else g.setDist e.1 { g.dist e.1 with zeroDue := false }) h2

/-- What acts at the tick: schedule actions that wait, what only a TIME tick carries out, clock groups, and the schedule table (R99, R103 to R105, R108,
R114, R440). -/
def Hub.tickTables (h : Hub) : Hub :=
  let h1 := ({ h with acquired := [] }).passActs
  (if h1.tb.lock then h1.timeTables else h1).tickGroups.evaluateAses

/-- The counters that run beside TS: hours and histogram of the AON domain, and the watchdog, which Mbonik kicks while it runs, and which pauses in
HOLLOW and BASIN and while a debugger holds the Col pair (R298, R399). (log 19: DEDUCED) -/
def Hub.tickCounters (h : Hub) (dt : Nat) : Hub :=
  let on := h.pwr.state != 4
  let counts := h.hl.ready && h.bit 0x10064 16 && decide (h.pwr.state < 3) && (h.eng 72).st != .debug
  { h with age := { h.age with onFor := if on then h.age.onFor + dt else h.age.onFor, histFor := h.age.histFor + dt },
           wdt := if h.mbonik then 0 else if counts then h.wdt + dt else h.wdt }

/-- An engine shadow begins at the live engine's first IDLE moment (R284). (log 66: DEDUCED) -/
def Hub.shadowBegins (h : Hub) : Hub :=
  let x := h.shd 3
  if x.phase == 1 && x.warmed == 0 && x.live.any (fun n => (h.eng (h.physOf 0x50 n)).st == .idle) then
    h.setShd 3 { x with warmed := 1, since := h.now }
  else h

/-- Places in the ports' queues that are free go to held triggers and to frames of probes (R184, R196). -/
def Hub.admitAll (h : Hub) : Hub :=
  let ports := (h.tx.filter (fun e => e.2.held.isSome)).map (fun e => h.txPort e.1)
    ++ (h.probes.filter (fun e => e.2.waiting)).filterMap (fun e => h.probePort e.1)
  ports.foldl Hub.accept h

/-- One tick of the hub. -/
def Hub.tick (h : Hub) : Hub :=
  let h0 := h.tincApply
  let g := h0.clockTick.repairNow h0.tb
  let g1 := if g.tb.setDone && !h.tb.setDone then g.afterSet (g.tb.acc - (h0.tb.acc + h0.tickStep.2)) else g
  (g1.tickTables.tickCounters h.tickStep.1).shadowBegins.admitAll.pinsNow

/-- One tick of the machine: requests that engines have issued reach their targets too (R245). (log 1: DESIGN CHOICE) -/
def State.tick (s : State) : State := (s.mapHub Hub.tick).drainRequests.settle

/-! ### What is due -/

/-- A list without its repetitions. -/
def distinct (l : List Nat) : List Nat := l.foldl (fun m a => if m.contains a then m else m ++ [a]) []

/-- The time base (R74, R78, R183). A commit of TINC acts within the tick it applies to (R72). -/
def Hub.dueTime (h : Hub) : List Instr :=
  let t := h.tb
  (if t.wrapDue then [.wrap] else []) ++ (if t.halfDue then [.halfwrap] else []) ++ (if t.rearmDue then [.epochRearm] else [])
    ++ (if t.epochDue && h.pwr.state != 4 then [.scheduleEpoch] else [])

/-- The angle unit: the end of tooth edges before the firings it bears on (R95), window edges, pulses, and the end of wheel edges (R94, R100, R104,
R105, R109). (log 28: DEDUCED) -/
def Hub.dueAngle (h : Hub) : List Instr :=
  let c := h.ang.crank
  let span := ((c.run.span.orElse (fun _ => c.pred)).map (fun p => 4 * p / 2 ^ 34)).getD (2 ^ 64)
  let crank := h.bit 0x30040 0 && c.last.isSome && decide (c.lastAt + min span (h.fld 0x30050 16 16 * 64000000) ≤ h.now)
  (if crank then [.crankStall] else []) ++ h.ang.firing.map (fun i => .aseFire i)
    ++ h.winEdges.map (fun e => if e.2.1 then .winOpen e.1 e.2.2 else .winClose e.1 e.2.2)
    ++ (h.ang.tout.filter (fun e => decide (e.2 ≤ h.now))).map (fun e => .toutPulseEnd e.1)
    ++ (h.ang.pulses.filter (fun p => decide (p.2.2 ≤ h.now))).map (fun p => .toutPulseStart p.1)
    ++ (h.ang.dist.filter (fun e => e.2.last.isSome && decide (e.2.lastAt + h.fld (dstReg e.1 0xC) 16 16 * 64000000 ≤ h.now))).map
        (fun e => .distStall e.1)

/-- A stage of a record that its ring, or nothing, can take. -/
def Stage.passes : Stage → Bool
  | .ready => true
  | .none => true
  | .result => false
  | .toTask _ => false
  | .inTask => false
  | .held _ => false

/-- Records on their way from capture to their rings, and what the banks and resamplers still hold (R16, R18, R66, R120, R138, R254). (log 26: DESIGN CHOICE) -/
def Hub.dueRecords (h : Hub) : List Instr :=
  let sids := distinct (h.flight.map (fun f => f.sid))
  h.handoff.map (fun e => .recordForm e.1 e.2)
    ++ (h.ms.filter (fun e => !e.2.fifo.isEmpty)).map (fun e => .bankMOutput e.1)
    ++ (h.rs.filter (fun e => e.2.next.isSome && (h.rsmpOwner e.1).any (fun sid => h.nextPoint sid e.1 != .wait))).map (fun e => .gridPoint e.1)
    ++ (sids.filter (fun sid => h.flight.any (waitsTask sid))).map (fun sid => .dispatch sid)
    ++ h.taps.map (fun e => .recSample e.1 e.2.rcd)
    ++ sids.flatMap (fun sid => ((h.flight.filter (fun f => f.sid == sid)).takeWhile (fun f => f.stage.passes)).map (fun _ => .recordStore sid))
    ++ (h.streams.filter (fun e => e.2.state == .draining && (h.oldest e.1).isNone && !h.onHold e.1)).map (fun e => .streamDrainComplete e.1)

/-- An expiry of WIN in its place: those of one tick act in the order of their instants (R210). -/
def byInstant (x : BitVec 36 × Nat × Nat) : List (BitVec 36 × Nat × Nat) → List (BitVec 36 × Nat × Nat)
  | [] => [x]
  | y :: r => if before x.1 y.1 then x :: y :: r else y :: byInstant x r

/-- Recognisers and event queues: 32 FAB cycles are 40 ns (R206, R210, R220). (log 116: DEDUCED) -/
def Hub.dueEvents (h : Hub) : List Instr :=
  (h.recs.filter (fun e => e.2.settling.any (h.settleOver e.1))).map (fun e => .settleTimeout e.1)
    ++ ((h.recs.flatMap (fun e => (ones 4 e.2.truth.toNat).filterMap (fun k => (h.winOver e.1 k).map (fun t => (t, e.1, k))))).foldl
        (fun l x => byInstant x l) []).map (fun x => .combineWinExpire x.2.1 x.2.2)
    ++ h.eqs.flatMap (fun q => (q.2.items.filter (fun i => !i.ripe && decide (i.at_ + 2560 ≤ h.now))).map (fun _ => .eqItemEligible q.1))

/-- The name of port p. -/
def portName (p : Nat) : PortId := if p < 16 then .sp p else .tw (p - 16)

/-- Triggers, ports and probes (R157, R158, R166, R169, R185, R189, R192, R196). -/
def Hub.duePorts (h : Hub) : List Instr :=
  h.tx.flatMap (fun e => match e.2.due with
      | none => []
      | some d => if before h.ts d then [] else List.replicate (min 64 ((h.ts - d).toNat / max 1 (h.reg (txReg e.1 0xC)).toNat + 1)) (.timeTriggerDue e.1))
    ++ (h.tx.filter (fun e => e.2.spaced && !h.spaced e.1)).map (fun e => .bankMSpacingEnd e.1)
    ++ (h.queues.filter (fun q => q.2.active.isNone && !q.2.waiting.isEmpty && h.portBegins q.1)).map
        (fun q => .portStartTransaction (portName q.1))
    ++ (h.sps.filter (fun e => e.2.phase == .wait && decide (e.2.at_ + portUnits e.2.sen ≤ h.now))).map (fun e => .spRetryWaitEnd e.1)
    ++ (h.tws.filter (fun e => e.2.busy && e.2.freeAt != 0 && decide (e.2.freeAt ≤ h.now) && e.2.phase != .frame && e.2.tgt.isNone)).map
        (fun e => .busFree e.1)
    ++ (h.tws.filter (fun e => e.2.phase == .wait && !e.2.busy && decide (e.2.freeAt + e.2.hold ≤ h.now))).map (fun e => .twRetryWaitEnd e.1)
    ++ (h.queues.filter (fun q => q.2.active.isSome &&
        (match (if q.1 < 16 then (h.spt q.1).phase else (h.twt (q.1 - 16)).phase) with
          | .done _ => true
          | _ => false))).map (fun q => .transactionComplete (portName q.1))
    ++ h.probes.filterMap (fun e => e.2.result.map (fun r => .probeRun e.1 r.1 r.2))

/-- Engines: a run that can start, and an interrupt that can be taken (R251, R254, R294). -/
def State.dueEngines (s : State) : List Instr :=
  let h := s.hub
  let work (e : Nat × Engine) : Bool :=
    match e.2.again ++ e.2.queue with
    | d :: _ => d.third || (h.taskSlot e.1 (h.taskId d.sid)).isSome
    | [] => (s.dequeTake e.1).isSome
  (h.engines.filter (fun e => h.canRun e.1 && work e)).map (fun e => .taskRunStart e.1)
    ++ (h.engines.filter (fun e => h.interruptDue e.1)).map (fun e => .interruptEntry e.1)

/-- Self-repair, the Layout Table, ageing and the governor (R47, R281 to R286, R292, R298, R301, R303, R307 to R315). A repair entry reads back
unless the command comes from outside. -/
def Hub.dueCare (h : Hub) : List Instr :=
  let a := h.age
  let over_ (k : Nat) : Bool := let x := h.shd k
                                x.phase == 3 && (decide (x.since + 128000000 ≤ h.now) || decide (128 ≤ x.outs.length) || decide (128 ≤ x.smps.length))
  let copy := h.shd 3
  [0, 1, 2, 3].flatMap (fun k =>
      (if (h.shd k).ask && (h.dwellUnits k).isSome then [.dwellStart k] else []) ++ (if h.dwellOver k then [.dwellEnd k] else [])
        ++ (if over_ k then [.voteTimeout k] else []))
    ++ (if copy.phase == 1 && copy.warmed != 0 && decide (copy.since + 24576 * 64000 / max 1 h.engClock ≤ h.now) then [.shadowCopyDone] else [])
    ++ (if !h.rp.due.isEmpty && h.mbonik && decide (h.pwr.state ≤ 1) then [.fieldRepairWrite true] else [])
    ++ (if (h.shd 0).ask && h.wantsStealing.isSome then [.schedulingChange] else []) ++ (if h.lay.next.isSome && h.mbonik then [.layoutTableSwap] else [])
    ++ (if a.avs == 2 && decide (a.avsAt + h.avsSettle * 64000 ≤ h.now) then [.avsSettleEnd] else [])
    ++ (if a.relock.isSome then [.engPllRelock] else []) ++ (a.guardDue.toList.map (fun c => .guardStep c))
    ++ (if decide (histMinute ≤ a.histFor) then [.thermalHistogramTick] else [])
    ++ (if h.alarmDue then [.alarm] else []) ++ (if h.angWakeDue then [.angWake] else [])
    ++ (if h.pwr.holds.any (fun x => decide (x.2 ≤ h.now)) then [.wakeHoldExpire] else []) ++ (if h.governDue then [.governorEvaluate] else [])
    ++ (if h.entryDue && (!h.entryWaits h.pwr.target || (!h.pwr.entering && h.pwr.target != 1)) then [.powerEntry] else []) ++ (if h.exitTo.isSome then [.powerExit] else [])

/-- The ring whose datagram MAC m forms next: round robin after the one last served (R370). -/
def Hub.nextDatagram (h : Hub) (m : Nat) : Option Nat :=
  let l := (h.rings.map (fun e => e.1)).filter (fun n => h.datagramMac n == some m)
  (l.find? (fun n => decide ((h.mac m).served < n))).orElse (fun _ => l.head?)

/-- The servo has lost its Syncs or its Announces for three intervals, or the link of the SLAVE port (R369). The Announce interval is that of
LOG_ANN, since the messages a command carries tell none. (log 79: DEDUCED) -/
def Hub.servoLost (h : Hub) : Bool :=
  h.ptpOn && h.mbonik && h.ptp.state != 0 && h.ptp.state != 4 &&
    (match h.slavePort with
      | none => false
      | some m => !(h.mac m).link || decide ((h.ptp.syncAt : Int) + scale2 192000000000 h.ptp.logSync ≤ h.now)
        || decide ((h.ptp.annAt : Int) + scale2 192000000000 (BitVec.ofNat 4 (h.fld 0xF7000 24 4)).toInt ≤ h.now))

/-- Ethernet and datagrams (R231, R335, R357, R359, R369, R370). -/
def Hub.dueNet (h : Hub) : List Instr :=
  ((h.rings.map (fun e => e.1)).filter (fun n => h.ringOn n && (h.ringMac n).isSome && h.flushOver n && !h.dgDue.contains n)).map
      (fun n => .flushMsExpire n)
    ++ [0, 1].filterMap (fun m => (h.nextDatagram m).map (fun n => .datagramForm n []))
    ++ (h.macs.filter (fun e => e.2.pause.any (fun t => decide (t ≤ h.now)))).map (fun e => .pauseExpire e.1)
    ++ (h.macs.filter (fun e => h.pwr.state == 1 && h.macOn e.1 && h.bit (macReg e.1 0) 5 && e.2.link && !e.2.txLpi && e.2.frames.isEmpty
        && e.2.dg.isNone)).map (fun e => .lpiEnter e.1)
    ++ (if h.servoLost then [.servoHold] else [])
    ++ ([9, 10, 11, 12].filter (fun t => h.replyReady t)).map (fun t => .replyTaken t)
    ++ ([0, 1, 2, 3].filter (fun i => let x := h.xp (9 + i)
                                      x.source.isSome && x.tags.isEmpty && decide (x.heard + 3840000000000 ≤ h.now))).map (fun i => .udpSlotExpire i)
    ++ ((List.range 8).filter (fun n => let x := h.xp (n + 1)
                                        !x.inbuf.isEmpty && decide (x.putAt + 6400000000 ≤ h.now))).map (fun n => .cmdPutTimeout n)

/-! ### Packets (R323, R343) -/

/-- The command of an opcode. Of a self-test the outcome comes from outside, and with it the command; flash and OTP take what is written to them
unless the command comes from outside. -/
def commandOf (op : Nat) (p : Pkt) : Option Instr :=
  match op with
  | 0x01 => some (.ping p)
  | 0x02 => some (.tableRead p)
  | 0x03 => some (.reset p)
  | 0x04 => some (.resetCause p)
  | 0x05 => some (.irqStatus p)
  | 0x06 => some (.sysRead p)
  | 0x07 => some (.sysWrite p)
  | 0x08 => some (.deviceId p)
  | 0x10 => some (.ctxRead p)
  | 0x11 => some (.ctxWrite p)
  | 0x12 => some (.streamStart p)
  | 0x13 => some (.streamStop p)
  | 0x14 => some (.streamStates p)
  | 0x20 => some (.bankRead p)
  | 0x21 => some (.bankWrite p)
  | 0x22 => some (.syncCommand p)
  | 0x30 => some (.schRead p)
  | 0x31 => some (.schWrite p)
  | 0x32 => some (.kick p)
  | 0x33 => some (.probeStates p)
  | 0x40 => some (.recRead p)
  | 0x41 => some (.recWrite p)
  | 0x42 => some (.eqPop p)
  | 0x43 => some (.eqPost p)
  | 0x50 => some (.ringRead p)
  | 0x51 => some (.ringWrite p)
  | 0x52 => some (.ringTake p)
  | 0x60 => some (.tnRead p)
  | 0x61 => some (.tnWrite p)
  | 0x62 => some (.timeNow p)
  | 0x63 => some (.epochSet p)
  | 0x64 => some (.tincSet p)
  | 0x70 => some (.ltolSet p)
  | 0x71 => some (.pwrRead p)
  | 0x72 => some (.pwrWrite p)
  | 0x80 => some (.hltRead p)
  | 0x81 => some (.hltWrite p)
  | 0x82 => some (.ageReport p)
  | 0x83 => some (.retire p)
  | 0x84 => none
  | 0x85 => none
  | 0x90 => some (.secStatus p)
  | 0x91 => some (.dbgChallenge p)
  | 0x92 => some (.dbgResponse p)
  | 0x93 => some (.dbgClose p)
  | 0x94 => some (.lifecycleSet p true)
  | 0xA0 => some (.fwInfo p)
  | 0xA1 => some (.fwStage p true)
  | 0xA2 => some (.fwCommit p true)
  | 0xA3 => some (.taskStage p)
  | 0xA4 => some (.taskInstall p)
  | 0xA5 => some (.taskRemove p)
  | 0xA6 => some (.engRead p)
  | 0xB0 => some (.memRead p)
  | 0xB1 => some (.memWrite p)
  | n => some (.unknownOpcode (BitVec.ofNat 8 n) p)

/-- The packet a transport has accepted, by its fields (R318). -/
def packetOf (a : Packet) : Pkt :=
  { t := a.t, flags := loByte (a.words.headD 0), tag := packetTag a.words, params := (a.words.drop 2).dropLast }

/-- Mbonik carries out one packet at a time, oldest first; a STREAM_STOP that waits for IDLE goes on once it can end. Then what resets the hub. -/
def Hub.duePackets (h : Hub) : List Instr :=
  let run := match h.hl.stopping with
    | some (p, since) => if (h.strm (pword p 0)).state == .idle || decide (since + 6400000000 ≤ h.now) then [Instr.streamStop p] else []
    | none =>
      match h.hl.accepted with
      | [] => []
      | a :: _ => (commandOf (hiByte (a.words.headD 0)).toNat (packetOf a)).toList
  (if h.mbonik && decide (h.pwr.state < 3) then run else [])
    ++ (if h.mbonik && h.sec.arbDue && h.sec.image.isSome then [.arbUpdate []] else [])
    ++ (if h.bit 0x10064 16 && decide (0 < h.wdt ∧ h.fld 0x10064 0 16 * 64000000 ≤ h.wdt) then [.watchdogExpire] else [])
    ++ (match h.hl.resetAt with
        | some (t, since) => if h.hl.resetNow || (h.xp t).out.isEmpty || decide (since + 3200000000 ≤ h.now) then [.commandReset] else []
        | none => [])

/-- Every command that has come due, in the order they join the queue. (log 1: DESIGN CHOICE) -/
def State.due (s : State) : List Instr :=
  let h := s.hub
  h.dueTime ++ h.dueAngle ++ h.dueRecords ++ h.dueEvents ++ h.duePorts ++ s.dueEngines ++ h.dueCare ++ h.dueNet ++ h.duePackets

/-- A schedule epoch's call for dwells has been heard. -/
def Hub.heard (h : Hub) : Hub := (h.rp.shadows.filter (fun e => e.2.ask)).foldl (fun (g : Hub) e => g.setShd e.1 { e.2 with ask := false }) h

/-- The idle step: a tick passes, and what is due then waits. (log 1: DESIGN CHOICE) (log 115: DESIGN CHOICE) -/
def State.idle (s : State) : State :=
  let t := s.tick
  { t.mapHub Hub.heard with pending := t.due }

end Sys2Proof.Machine
end

