-- ==== Sys2Proof/Machine/Dispatch.lean ====
section
/-! DEFINITION. One arm for each command of the opcode table, each one call of its meaning. -/

namespace Sys2Proof.Machine

/-- The effect of a command on everything but the queue. -/
def exec (i : Instr) (s : State) : Host.Outcome State Fault Refusal :=
  match i with
  | .registerWrite by_ addr bytes val => Sys2Proof.Machine.execRegisterWrite by_ addr bytes val s
  | .rcRead by_ addr bytes => Sys2Proof.Machine.execRcRead by_ addr bytes s
  | .counterLowRead by_ addr => Sys2Proof.Machine.execCounterLowRead by_ addr s
  | .fabricParityFail c => Sys2Proof.Machine.execFabricParityFail c s
  | .readReplyParityFail by_ addr again => Sys2Proof.Machine.execReadReplyParityFail by_ addr again s
  | .refclkLoss => Sys2Proof.Machine.execRefclkLoss s
  | .timePllLock => Sys2Proof.Machine.execTimePllLock s
  | .layoutTableWrite by_ addr val => Sys2Proof.Machine.execLayoutTableWrite by_ addr val s
  | .layoutTableSwap => Sys2Proof.Machine.execLayoutTableSwap s
  | .recordForm sid smp => Sys2Proof.Machine.execRecordForm sid smp s
  | .dispatch sid => Sys2Proof.Machine.execDispatch sid s
  | .recordStore sid => Sys2Proof.Machine.execRecordStore sid s
  | .streamDrainComplete sid => Sys2Proof.Machine.execStreamDrainComplete sid s
  | .ctxStart sid => Sys2Proof.Machine.execCtxStart sid s
  | .ctxStop sid => Sys2Proof.Machine.execCtxStop sid s
  | .ctxCommit sid => Sys2Proof.Machine.execCtxCommit sid s
  | .wrap => Sys2Proof.Machine.execWrap s
  | .halfwrap => Sys2Proof.Machine.execHalfwrap s
  | .epochRearm => Sys2Proof.Machine.execEpochRearm s
  | .tbArm => Sys2Proof.Machine.execTbArm s
  | .tbDisarm => Sys2Proof.Machine.execTbDisarm s
  | .tbRepair => Sys2Proof.Machine.execTbRepair s
  | .tbCommit => Sys2Proof.Machine.execTbCommit s
  | .tincApply => Sys2Proof.Machine.execTincApply s
  | .tsSet ts => Sys2Proof.Machine.execTsSet ts s
  | .scheduleEpoch => Sys2Proof.Machine.execScheduleEpoch s
  | .trgPinEdge pin level code => Sys2Proof.Machine.execTrgPinEdge pin level code s
  | .angPinEdge pin level code => Sys2Proof.Machine.execAngPinEdge pin level code s
  | .crankStall => Sys2Proof.Machine.execCrankStall s
  | .crkEnable en => Sys2Proof.Machine.execCrkEnable en s
  | .crkResync => Sys2Proof.Machine.execCrkResync s
  | .distStall d => Sys2Proof.Machine.execDistStall d s
  | .dstEnable d en => Sys2Proof.Machine.execDstEnable d en s
  | .dstZero d => Sys2Proof.Machine.execDstZero d s
  | .asePosWrite ix val => Sys2Proof.Machine.execAsePosWrite ix val s
  | .aseActionWrite ix val => Sys2Proof.Machine.execAseActionWrite ix val s
  | .aseFire ix => Sys2Proof.Machine.execAseFire ix s
  | .toutPulseStart pin => Sys2Proof.Machine.execToutPulseStart pin s
  | .toutPulseEnd pin => Sys2Proof.Machine.execToutPulseEnd pin s
  | .astEnable => Sys2Proof.Machine.execAstEnable s
  | .disarmAll => Sys2Proof.Machine.execDisarmAll s
  | .angWake => Sys2Proof.Machine.execAngWake s
  | .hbGroupEnable mask => Sys2Proof.Machine.execHbGroupEnable mask s
  | .hbGroupStop mask => Sys2Proof.Machine.execHbGroupStop mask s
  | .bankHOutput n bits => Sys2Proof.Machine.execBankHOutput n bits s
  | .bankMOutput n => Sys2Proof.Machine.execBankMOutput n s
  | .hchCommit n => Sys2Proof.Machine.execHchCommit n s
  | .mchCommit n => Sys2Proof.Machine.execMchCommit n s
  | .mbSync => Sys2Proof.Machine.execMbSync s
  | .syncNFall => Sys2Proof.Machine.execSyncNFall s
  | .gridPoint n => Sys2Proof.Machine.execGridPoint n s
  | .rsCommit n => Sys2Proof.Machine.execRsCommit n s
  | .romWrite by_ addr val => Sys2Proof.Machine.execRomWrite by_ addr val s
  | .spEnable n en => Sys2Proof.Machine.execSpEnable n en s
  | .spCommit n => Sys2Proof.Machine.execSpCommit n s
  | .spAbort n => Sys2Proof.Machine.execSpAbort n s
  | .portStartTransaction p => Sys2Proof.Machine.execPortStartTransaction p s
  | .spFrameEnd n words => Sys2Proof.Machine.execSpFrameEnd n words s
  | .spRetryWaitEnd n => Sys2Proof.Machine.execSpRetryWaitEnd n s
  | .dqsTimeout n => Sys2Proof.Machine.execDqsTimeout n s
  | .transactionComplete p => Sys2Proof.Machine.execTransactionComplete p s
  | .twCtrlEnable n en => Sys2Proof.Machine.execTwCtrlEnable n en s
  | .tgtEnable n en => Sys2Proof.Machine.execTgtEnable n en s
  | .twCommit n => Sys2Proof.Machine.execTwCommit n s
  | .twAbort n => Sys2Proof.Machine.execTwAbort n s
  | .busclr n sdaHigh => Sys2Proof.Machine.execBusclr n sdaHigh s
  | .autoBusClear n sdaHigh => Sys2Proof.Machine.execAutoBusClear n sdaHigh s
  | .twFrameEnd n f => Sys2Proof.Machine.execTwFrameEnd n f s
  | .arbitrationLost n at_ => Sys2Proof.Machine.execArbitrationLost n at_ s
  | .twSclTimeout n => Sys2Proof.Machine.execTwSclTimeout n s
  | .busFree n => Sys2Proof.Machine.execBusFree n s
  | .targetAddressMatch n addr rd code => Sys2Proof.Machine.execTargetAddressMatch n addr rd code s
  | .cmdPut n raw => Sys2Proof.Machine.execCmdPut n raw s
  | .rspGet n clean => Sys2Proof.Machine.execRspGet n clean s
  | .hubStatus n => Sys2Proof.Machine.execHubStatus n s
  | .eqPeek n => Sys2Proof.Machine.execEqPeek n s
  | .twLtolSet n raw => Sys2Proof.Machine.execTwLtolSet n raw s
  | .targetTimeout n => Sys2Proof.Machine.execTargetTimeout n s
  | .cmdPutTimeout n => Sys2Proof.Machine.execCmdPutTimeout n s
  | .txEnable ix en => Sys2Proof.Machine.execTxEnable ix en s
  | .txKick ix => Sys2Proof.Machine.execTxKick ix s
  | .timeTriggerDue ix => Sys2Proof.Machine.execTimeTriggerDue ix s
  | .bankMSpacingEnd ix => Sys2Proof.Machine.execBankMSpacingEnd ix s
  | .schCommit => Sys2Proof.Machine.execSchCommit s
  | .probeEnable j en => Sys2Proof.Machine.execProbeEnable j en s
  | .probeRun j code id => Sys2Proof.Machine.execProbeRun j code id s
  | .recSample r rec => Sys2Proof.Machine.execRecSample r rec s
  | .winOpen r edge => Sys2Proof.Machine.execWinOpen r edge s
  | .winClose r edge => Sys2Proof.Machine.execWinClose r edge s
  | .settleTimeout r => Sys2Proof.Machine.execSettleTimeout r s
  | .combineWinExpire r k => Sys2Proof.Machine.execCombineWinExpire r k s
  | .recEnable r en => Sys2Proof.Machine.execRecEnable r en s
  | .recCommit r => Sys2Proof.Machine.execRecCommit r s
  | .eqInsert q rec => Sys2Proof.Machine.execEqInsert q rec s
  | .eqPush q bits item => Sys2Proof.Machine.execEqPush q bits item s
  | .eqHeadPop q badParity => Sys2Proof.Machine.execEqHeadPop q badParity s
  | .flush q => Sys2Proof.Machine.execFlush q s
  | .ringEnable n => Sys2Proof.Machine.execRingEnable n s
  | .ringDisable n => Sys2Proof.Machine.execRingDisable n s
  | .release n => Sys2Proof.Machine.execRelease n s
  | .rdIdxWrite n val => Sys2Proof.Machine.execRdIdxWrite n val s
  | .datagramForm n badWords => Sys2Proof.Machine.execDatagramForm n badWords s
  | .flushMsExpire n => Sys2Proof.Machine.execFlushMsExpire n s
  | .taskRunStart e => Sys2Proof.Machine.execTaskRunStart e s
  | .interruptEntry e => Sys2Proof.Machine.execInterruptEntry e s
  | .budgetExceeded e => Sys2Proof.Machine.execBudgetExceeded e s
  | .readDataArrival e w bad => Sys2Proof.Machine.execReadDataArrival e w bad s
  | .engRun e => Sys2Proof.Machine.execEngRun e s
  | .engReset e => Sys2Proof.Machine.execEngReset e s
  | .engHalt e => Sys2Proof.Machine.execEngHalt e s
  | .engResume e => Sys2Proof.Machine.execEngResume e s
  | .engSwi e => Sys2Proof.Machine.execEngSwi e s
  | .engService by_ e svc => Sys2Proof.Machine.execEngService by_ e svc s
  | .codeRamWrite by_ addr val => Sys2Proof.Machine.execCodeRamWrite by_ addr val s
  | .lockstepMismatch => Sys2Proof.Machine.execLockstepMismatch s
  | .dwellStart k => Sys2Proof.Machine.execDwellStart k s
  | .dwellEnd k => Sys2Proof.Machine.execDwellEnd k s
  | .shadowCopyDone => Sys2Proof.Machine.execShadowCopyDone s
  | .shadowMismatch k stage => Sys2Proof.Machine.execShadowMismatch k stage s
  | .vote k op => Sys2Proof.Machine.execVote k op s
  | .voteTimeout k => Sys2Proof.Machine.execVoteTimeout k s
  | .fieldRepairWrite readsBack => Sys2Proof.Machine.execFieldRepairWrite readsBack s
  | .schedulingChange => Sys2Proof.Machine.execSchedulingChange s
  | .rpNext => Sys2Proof.Machine.execRpNext s
  | .plannerCycle failed => Sys2Proof.Machine.execPlannerCycle failed s
  | .guardStep c => Sys2Proof.Machine.execGuardStep c s
  | .monitorSample slack temp => Sys2Proof.Machine.execMonitorSample slack temp s
  | .vminProbe b mv => Sys2Proof.Machine.execVminProbe b mv s
  | .thermalHistogramTick => Sys2Proof.Machine.execThermalHistogramTick s
  | .avsPgoodHigh => Sys2Proof.Machine.execAvsPgoodHigh s
  | .avsFault => Sys2Proof.Machine.execAvsFault s
  | .clrAvs => Sys2Proof.Machine.execClrAvs s
  | .engPllRelock => Sys2Proof.Machine.execEngPllRelock s
  | .governorEvaluate => Sys2Proof.Machine.execGovernorEvaluate s
  | .powerEntry => Sys2Proof.Machine.execPowerEntry s
  | .powerExit => Sys2Proof.Machine.execPowerExit s
  | .wakePin n rise => Sys2Proof.Machine.execWakePin n rise s
  | .hostLinkWake => Sys2Proof.Machine.execHostLinkWake s
  | .alarm => Sys2Proof.Machine.execAlarm s
  | .wakeHoldExpire => Sys2Proof.Machine.execWakeHoldExpire s
  | .hlSelect sckHigh header => Sys2Proof.Machine.execHlSelect sckHigh header s
  | .hlDeselect => Sys2Proof.Machine.execHlDeselect s
  | .packetReceive t words => Sys2Proof.Machine.execPacketReceive t words s
  | .replyTaken t => Sys2Proof.Machine.execReplyTaken t s
  | .mgmtDatagram m dg => Sys2Proof.Machine.execMgmtDatagram m dg s
  | .udpSlotExpire slot => Sys2Proof.Machine.execUdpSlotExpire slot s
  | .ping p => Sys2Proof.Machine.execPing p s
  | .tableRead p => Sys2Proof.Machine.execTableRead p s
  | .reset p => Sys2Proof.Machine.execReset p s
  | .resetCause p => Sys2Proof.Machine.execResetCause p s
  | .irqStatus p => Sys2Proof.Machine.execIrqStatus p s
  | .sysRead p => Sys2Proof.Machine.execSysRead p s
  | .sysWrite p => Sys2Proof.Machine.execSysWrite p s
  | .deviceId p => Sys2Proof.Machine.execDeviceId p s
  | .ctxRead p => Sys2Proof.Machine.execCtxRead p s
  | .ctxWrite p => Sys2Proof.Machine.execCtxWrite p s
  | .streamStart p => Sys2Proof.Machine.execStreamStart p s
  | .streamStop p => Sys2Proof.Machine.execStreamStop p s
  | .streamStates p => Sys2Proof.Machine.execStreamStates p s
  | .bankRead p => Sys2Proof.Machine.execBankRead p s
  | .bankWrite p => Sys2Proof.Machine.execBankWrite p s
  | .syncCommand p => Sys2Proof.Machine.execSyncCommand p s
  | .schRead p => Sys2Proof.Machine.execSchRead p s
  | .schWrite p => Sys2Proof.Machine.execSchWrite p s
  | .kick p => Sys2Proof.Machine.execKick p s
  | .probeStates p => Sys2Proof.Machine.execProbeStates p s
  | .recRead p => Sys2Proof.Machine.execRecRead p s
  | .recWrite p => Sys2Proof.Machine.execRecWrite p s
  | .eqPop p => Sys2Proof.Machine.execEqPop p s
  | .eqPost p => Sys2Proof.Machine.execEqPost p s
  | .ringRead p => Sys2Proof.Machine.execRingRead p s
  | .ringWrite p => Sys2Proof.Machine.execRingWrite p s
  | .ringTake p => Sys2Proof.Machine.execRingTake p s
  | .tnRead p => Sys2Proof.Machine.execTnRead p s
  | .tnWrite p => Sys2Proof.Machine.execTnWrite p s
  | .timeNow p => Sys2Proof.Machine.execTimeNow p s
  | .epochSet p => Sys2Proof.Machine.execEpochSet p s
  | .tincSet p => Sys2Proof.Machine.execTincSet p s
  | .ltolSet p => Sys2Proof.Machine.execLtolSet p s
  | .pwrRead p => Sys2Proof.Machine.execPwrRead p s
  | .pwrWrite p => Sys2Proof.Machine.execPwrWrite p s
  | .hltRead p => Sys2Proof.Machine.execHltRead p s
  | .hltWrite p => Sys2Proof.Machine.execHltWrite p s
  | .ageReport p => Sys2Proof.Machine.execAgeReport p s
  | .retire p => Sys2Proof.Machine.execRetire p s
  | .retest p passed => Sys2Proof.Machine.execRetest p passed s
  | .selftest p failed => Sys2Proof.Machine.execSelftest p failed s
  | .secStatus p => Sys2Proof.Machine.execSecStatus p s
  | .dbgChallenge p => Sys2Proof.Machine.execDbgChallenge p s
  | .dbgResponse p => Sys2Proof.Machine.execDbgResponse p s
  | .dbgClose p => Sys2Proof.Machine.execDbgClose p s
  | .lifecycleSet p readsBack => Sys2Proof.Machine.execLifecycleSet p readsBack s
  | .fwInfo p => Sys2Proof.Machine.execFwInfo p s
  | .fwStage p flashOk => Sys2Proof.Machine.execFwStage p flashOk s
  | .fwCommit p flashOk => Sys2Proof.Machine.execFwCommit p flashOk s
  | .taskStage p => Sys2Proof.Machine.execTaskStage p s
  | .taskInstall p => Sys2Proof.Machine.execTaskInstall p s
  | .taskRemove p => Sys2Proof.Machine.execTaskRemove p s
  | .engRead p => Sys2Proof.Machine.execEngRead p s
  | .memRead p => Sys2Proof.Machine.execMemRead p s
  | .memWrite p => Sys2Proof.Machine.execMemWrite p s
  | .linkUp m lw => Sys2Proof.Machine.execLinkUp m lw s
  | .linkDown m => Sys2Proof.Machine.execLinkDown m s
  | .frameReceive m f => Sys2Proof.Machine.execFrameReceive m f s
  | .ptpSyncReceive m sy => Sys2Proof.Machine.execPtpSyncReceive m sy s
  | .servoHold => Sys2Proof.Machine.execServoHold s
  | .ptpMasterTx m announce => Sys2Proof.Machine.execPtpMasterTx m announce s
  | .oneStepSyncTx m capTs capFrac => Sys2Proof.Machine.execOneStepSyncTx m capTs capFrac s
  | .lpiEnter m => Sys2Proof.Machine.execLpiEnter m s
  | .ptpEnable en => Sys2Proof.Machine.execPtpEnable en s
  | .mdioGo val => Sys2Proof.Machine.execMdioGo val s
  | .mdioDone data turnHigh => Sys2Proof.Machine.execMdioDone data turnHigh s
  | .keyStoreWrite by_ addr val => Sys2Proof.Machine.execKeyStoreWrite by_ addr val s
  | .arbUpdate readsBack => Sys2Proof.Machine.execArbUpdate readsBack s
  | .powerOnReset aonLost => Sys2Proof.Machine.execPowerOnReset aonLost s
  | .pinReset => Sys2Proof.Machine.execPinReset s
  | .watchdogExpire => Sys2Proof.Machine.execWatchdogExpire s
  | .commandReset => Sys2Proof.Machine.execCommandReset s
  | .wdtKick by_ val => Sys2Proof.Machine.execWdtKick by_ val s
  | .boot b => Sys2Proof.Machine.execBoot b s
  | .bootRetry b => Sys2Proof.Machine.execBootRetry b s
  | .supplyLow r => Sys2Proof.Machine.execSupplyLow r s
  | .supplyRestore r => Sys2Proof.Machine.execSupplyRestore r s
  | .xtalLost => Sys2Proof.Machine.execXtalLost s
  | .xtalReturn => Sys2Proof.Machine.execXtalReturn s
  | .eqItemEligible q => Sys2Proof.Machine.execEqItemEligible q s
  | .twRetryWaitEnd n => Sys2Proof.Machine.execTwRetryWaitEnd n s
  | .avsSettleEnd => Sys2Proof.Machine.execAvsSettleEnd s
  | .delayRequestTx m => Sys2Proof.Machine.execDelayRequestTx m s
  | .frameTransmit m capTs capFrac => Sys2Proof.Machine.execFrameTransmit m capTs capFrac s
  | .pauseExpire m => Sys2Proof.Machine.execPauseExpire m s
  | .unknownOpcode op p => Sys2Proof.Machine.execUnknownOpcode op p s
  | .tapReset => Sys2Proof.Machine.execTapReset s
  | .captureIr => Sys2Proof.Machine.execCaptureIr s
  | .extest => Sys2Proof.Machine.execExtest s
  | .samplePreload => Sys2Proof.Machine.execSamplePreload s
  | .idcode => Sys2Proof.Machine.execIdcode s
  | .clamp => Sys2Proof.Machine.execClamp s
  | .highz => Sys2Proof.Machine.execHighz s
  | .dbgacc => Sys2Proof.Machine.execDbgacc s
  | .healthrd => Sys2Proof.Machine.execHealthrd s
  | .bypass code => Sys2Proof.Machine.execBypass code s
  | .dbgaccUpdate dr => Sys2Proof.Machine.execDbgaccUpdate dr s
  | .healthrdCapture => Sys2Proof.Machine.execHealthrdCapture s
  | .boundaryUpdate cells => Sys2Proof.Machine.execBoundaryUpdate cells s
  | .nop e p => Sys2Proof.Machine.execNop e p s
  | .dup e p => Sys2Proof.Machine.execDup e p s
  | .drop e p => Sys2Proof.Machine.execDrop e p s
  | .swap e p => Sys2Proof.Machine.execSwap e p s
  | .over e p => Sys2Proof.Machine.execOver e p s
  | .rot e p => Sys2Proof.Machine.execRot e p s
  | .nip e p => Sys2Proof.Machine.execNip e p s
  | .pick e p u => Sys2Proof.Machine.execPick e p u s
  | .lit8 e p v => Sys2Proof.Machine.execLit8 e p v s
  | .lit16 e p v => Sys2Proof.Machine.execLit16 e p v s
  | .lit32 e p v => Sys2Proof.Machine.execLit32 e p v s
  | .depth e p => Sys2Proof.Machine.execDepth e p s
  | .add e p => Sys2Proof.Machine.execAdd e p s
  | .sub e p => Sys2Proof.Machine.execSub e p s
  | .adc e p => Sys2Proof.Machine.execAdc e p s
  | .sbc e p => Sys2Proof.Machine.execSbc e p s
  | .neg e p => Sys2Proof.Machine.execNeg e p s
  | .adds e p => Sys2Proof.Machine.execAdds e p s
  | .subs e p => Sys2Proof.Machine.execSubs e p s
  | .abs e p => Sys2Proof.Machine.execAbs e p s
  | .min e p => Sys2Proof.Machine.execMin e p s
  | .max e p => Sys2Proof.Machine.execMax e p s
  | .minu e p => Sys2Proof.Machine.execMinu e p s
  | .maxu e p => Sys2Proof.Machine.execMaxu e p s
  | .and e p => Sys2Proof.Machine.execAnd e p s
  | .or e p => Sys2Proof.Machine.execOr e p s
  | .xor e p => Sys2Proof.Machine.execXor e p s
  | .not e p => Sys2Proof.Machine.execNot e p s
  | .shl e p => Sys2Proof.Machine.execShl e p s
  | .shr e p => Sys2Proof.Machine.execShr e p s
  | .sar e p => Sys2Proof.Machine.execSar e p s
  | .shli e p u => Sys2Proof.Machine.execShli e p u s
  | .shri e p u => Sys2Proof.Machine.execShri e p u s
  | .sari e p u => Sys2Proof.Machine.execSari e p u s
  | .mul e p => Sys2Proof.Machine.execMul e p s
  | .mulu e p => Sys2Proof.Machine.execMulu e p s
  | .div e p => Sys2Proof.Machine.execDiv e p s
  | .divu e p => Sys2Proof.Machine.execDivu e p s
  | .divl e p => Sys2Proof.Machine.execDivl e p s
  | .divlu e p => Sys2Proof.Machine.execDivlu e p s
  | .addi e p v => Sys2Proof.Machine.execAddi e p v s
  | .sext e p => Sys2Proof.Machine.execSext e p s
  | .zext e p => Sys2Proof.Machine.execZext e p s
  | .cmp e p c => Sys2Proof.Machine.execCmp e p c s
  | .tst e p d => Sys2Proof.Machine.execTst e p d s
  | .plog e p l => Sys2Proof.Machine.execPlog e p l s
  | .pset e p d v => Sys2Proof.Machine.execPset e p d v s
  | .pushp e p d => Sys2Proof.Machine.execPushp e p d s
  | .popp e p d => Sys2Proof.Machine.execPopp e p d s
  | .pflag e p c => Sys2Proof.Machine.execPflag e p c s
  | .ld e p m d => Sys2Proof.Machine.execLd e p m d s
  | .st e p m d => Sys2Proof.Machine.execSt e p m d s
  | .lea e p m d => Sys2Proof.Machine.execLea e p m d s
  | .addb e p b v => Sys2Proof.Machine.execAddb e p b v s
  | .mfr e p r => Sys2Proof.Machine.execMfr e p r s
  | .mtr e p r => Sys2Proof.Machine.execMtr e p r s
  | .br e p rel => Sys2Proof.Machine.execBr e p rel s
  | .brl e p rel => Sys2Proof.Machine.execBrl e p rel s
  | .bra e p target => Sys2Proof.Machine.execBra e p target s
  | .brla e p target => Sys2Proof.Machine.execBrla e p target s
  | .bri e p => Sys2Proof.Machine.execBri e p s
  | .ret e p => Sys2Proof.Machine.execRet e p s
  | .loop e p rel => Sys2Proof.Machine.execLoop e p rel s
  | .reti e p => Sys2Proof.Machine.execReti e p s
  | .tdone e p u => Sys2Proof.Machine.execTdone e p u s
  | .trap e p u => Sys2Proof.Machine.execTrap e p u s
  | .brk e p => Sys2Proof.Machine.execBrk e p s
  | .post e p w m d => Sys2Proof.Machine.execPost e p w m d s
  | .fetch e p w m d => Sys2Proof.Machine.execFetch e p w m d s
  | .ldr e p w m d => Sys2Proof.Machine.execLdr e p w m d s
  | .stc e p w m d pd => Sys2Proof.Machine.execStc e p w m d pd s
  | .collect e p w pd => Sys2Proof.Machine.execCollect e p w pd s
  | .cpyf e p w => Sys2Proof.Machine.execCpyf e p w s
  | .movs e p => Sys2Proof.Machine.execMovs e p s
  | .fills e p => Sys2Proof.Machine.execFills e p s
  | .cmps e p pd => Sys2Proof.Machine.execCmps e p pd s
  | .codewr e p => Sys2Proof.Machine.execCodewr e p s
  | .flushi e p => Sys2Proof.Machine.execFlushi e p s
  | .dmac e p a b => Sys2Proof.Machine.execDmac e p a b s
  | .clracc e p => Sys2Proof.Machine.execClracc e p s
  | .rdacc e p => Sys2Proof.Machine.execRdacc e p s
  | .rdaccs e p => Sys2Proof.Machine.execRdaccs e p s
  | .undefinedOpcode e info => Sys2Proof.Machine.execUndefinedOpcode e info s

end Sys2Proof.Machine
end

