-- ==== Sys2Proof/Safety.lean ====
section
/-! DEFINITION. What a safe run is: every step answers a next state (R14), and the machine's own forms hold in every state. -/

namespace Sys2Proof.Machine

/-- The machine with another hub, storage and the queue as they are. -/
abbrev State.withHub (s : State) (h : Hub) : State := { s with hub := h }

/-! The terms in which the claims on Icevo instructions are made. -/

/-- An instruction passes every check of R264 and may act: its engine runs, with a budget that holds its cycles, the instruction is
legal, its guard holds, and its operands are on a stack that has room for its results; and no breakpoint stands at it. -/
def State.ready (s : State) (e : Nat) (p : Pfx) (i : Insn) : Prop :=
  let x := s.hub.eng e
  e ≤ 72 ∧ x.st.runs = true ∧ x.broken = false ∧ x.left ≠ some 0 ∧ x.exceeds i.cost = false ∧ illegal e x p i = none ∧ x.guard p = true ∧
    i.pops ≤ x.stack.length ∧ x.stack.length - i.pops + i.pushes ≤ 16

/-- Engine y, which an instruction begun by engine x leaves, with its cycles charged to it and at an address (R256, R258, R262). -/
def Engine.wentTo (x y : Engine) (cost pc : Nat) : Engine := { x.charge y cost with pc := BitVec.ofNat 18 pc }

/-- The same at the next address. -/
def Engine.wentOn (x y : Engine) (e : Nat) (p : Pfx) (i : Insn) : Engine := x.wentTo y i.cost (nextPc e p i x.pc)

/-- A command leaves engine e as y and storage as m, and everything else as it was. -/
def State.leaves (s : State) (c : Instr) (e : Nat) (y : Engine) (m : List Host.Cell) : Prop :=
  ∃ t, exec c s = .next t ∧ t.hub.eng e = y ∧ (∀ k, k ≠ e → t.hub.eng k = s.hub.eng k) ∧
    t = { s with mem := m, hub := { s.hub with engines := t.hub.engines } }

/-- The outcomes of an instruction that does not act, in the order of R264: an engine that does not run ignores it; one at
a breakpoint stops in DEBUG; a budget that is used up, an illegal form, cycles beyond the budget, and a stack too short or too full trap; one whose
guard fails takes its cycles alone. -/
def State.checksOf (s : State) (c : Instr) (e : Nat) (p : Pfx) (i : Insn) : Prop :=
  let x := s.hub.eng e
  let begins := e ≤ 72 ∧ x.st.runs = true ∧ x.broken = false ∧ x.left ≠ some 0
  let n := x.stack.length
  (e > 72 ∨ x.st.runs = false → exec c s = .next s) ∧
  (e ≤ 72 → x.st.runs = true → x.broken = true → exec c s = .next (s.mapHub (fun h => h.breakIn e)).settle) ∧
  (e ≤ 72 → x.st.runs = true → x.broken = false → x.left = some 0 → exec c s = .next (s.trapTo e 11 0).settle) ∧
  (∀ k, begins → illegal e x p i = some k → exec c s = .next (s.trapTo e 2 k).settle) ∧
  (begins → illegal e x p i = none → x.guard p = false → x.exceeds i.cost = true → exec c s = .next (s.trapTo e 11 0).settle) ∧
  (begins → illegal e x p i = none → x.guard p = false → x.exceeds i.cost = false → s.leaves c e (x.wentOn x e p i) s.mem) ∧
  (begins → illegal e x p i = none → x.guard p = true → n < i.pops → exec c s = .next (s.trapTo e 4 (i.pops - n)).settle) ∧
  (begins → illegal e x p i = none → x.guard p = true → i.pops ≤ n → 16 < n - i.pops + i.pushes →
    exec c s = .next (s.trapTo e 3 (n - i.pops + i.pushes - 16)).settle)

end Sys2Proof.Machine

namespace Sys2Proof.Safety

open Sys2Proof.Machine

/-- A step that neither stops with a fault nor refuses. -/
def goesOn (s : State) : Prop := ∃ t, step s = .next t

/-- The forms every state keeps: storage is canonical, and no SID 0 record waits between commands (R33, R63). -/
def sound (s : State) : Prop := Memory.wf s.mem = true ∧ s.hub.sysq = []

/-- k steps from a state all go on. -/
def safe : Nat → State → Prop
  | 0, _ => True
  | k + 1, s => ∃ t, step s = .next t ∧ safe k t

end Sys2Proof.Safety
end

