-- ==== Sys2Proof/WellFormed.lean ====
section
/-! DEFINITION. What a command may carry: each operand names an instance that the hub has. A command that acts on an instance
the hub does not have changes nothing. -/

namespace Sys2Proof

/-- A SID that names a stream context (R50). -/
def sidWf (sid : Nat) : Bool := decide (1 ≤ sid ∧ sid ≤ 255)

/-- An initiator: one of the 72 Dale engines where it is an engine (R27). -/
def Initiator.wf : Initiator → Bool
  | .eng n => decide (n < 72)
  | _ => true

/-- A port: SP0 to SP15 or TW0 to TW7. -/
def PortId.wf : PortId → Bool
  | .sp n => decide (n < 16)
  | .tw n => decide (n < 8)

/-- A physical unit of a kind that has spares, or a batch SRAM bank (R44). -/
def UnitId.wf (u : UnitId) : Bool :=
  match u.ty with
  | 0x10 => decide (u.phys < 52)
  | 0x11 => decide (u.phys < 68)
  | 0x12 => decide (u.phys < 34)
  | 0x42 => decide (u.phys < 16)
  | 0x50 => decide (u.phys < 72)
  | _ => false

/-- Where a word failed parity: an engine's own fetch or load names an engine, a queue's stage a queue. -/
def ParitySite.wf (c : ParitySite) : Bool :=
  match c.word with
  | .record sid => sidWf sid
  | .fetch => decide (c.inst ≤ 72)
  | .load => decide (c.inst ≤ 72)
  | .stage _ => decide (c.inst < 32)
  | _ => true

/-- A packet: one of the 13 transports, and at most 250 parameter words (R318, R336). -/
def Pkt.wf (p : Pkt) : Bool := decide (p.t ≤ 12 ∧ p.params.length ≤ 250)

/-- The operands of a command name what the hub has. -/
def Instr.wf : Instr → Bool
  | .registerWrite by_ addr bytes _ => by_.wf && decide (1 ≤ bytes ∧ bytes ≤ 4 ∧ addr % 4 + bytes ≤ 4)
  | .rcRead by_ addr bytes => by_.wf && decide (1 ≤ bytes ∧ bytes ≤ 4 ∧ addr % 4 + bytes ≤ 4)
  | .counterLowRead by_ _ => by_.wf
  | .fabricParityFail c => c.wf
  | .readReplyParityFail by_ addr _ => by_.wf && decide (1 ≤ addr.bytes ∧ addr.bytes ≤ 16)
  | .refclkLoss => true
  | .timePllLock => true
  | .layoutTableWrite by_ _ _ => by_.wf
  | .layoutTableSwap => true
  | .recordForm sid _ => sidWf sid
  | .dispatch sid => sidWf sid
  | .recordStore sid => sidWf sid
  | .streamDrainComplete sid => sidWf sid
  | .ctxStart sid => sidWf sid
  | .ctxStop sid => sidWf sid
  | .ctxCommit sid => sidWf sid
  | .wrap => true
  | .halfwrap => true
  | .epochRearm => true
  | .tbArm => true
  | .tbDisarm => true
  | .tbRepair => true
  | .tbCommit => true
  | .tincApply => true
  | .tsSet _ => true
  | .scheduleEpoch => true
  | .trgPinEdge pin _ _ => decide (pin < 8)
  | .angPinEdge pin _ _ => decide (pin < 8)
  | .crankStall => true
  | .crkEnable _ => true
  | .crkResync => true
  | .distStall d => decide (d < 4)
  | .dstEnable d _ => decide (d < 4)
  | .dstZero d => decide (d < 4)
  | .asePosWrite i _ => decide (i < 1024)
  | .aseActionWrite i _ => decide (i < 1024)
  | .aseFire i => decide (i < 1024)
  | .toutPulseStart pin => decide (pin < 8)
  | .toutPulseEnd pin => decide (pin < 8)
  | .astEnable => true
  | .disarmAll => true
  | .angWake => true
  | .hbGroupEnable _ => true
  | .hbGroupStop _ => true
  | .bankHOutput n _ => decide (n < 48)
  | .bankMOutput n => decide (n < 64)
  | .hchCommit n => decide (n < 48)
  | .mchCommit n => decide (n < 64)
  | .mbSync => true
  | .syncNFall => true
  | .gridPoint n => decide (n < 32)
  | .rsCommit n => decide (n < 32)
  | .romWrite by_ _ _ => by_.wf
  | .spEnable n _ => decide (n < 16)
  | .spCommit n => decide (n < 16)
  | .spAbort n => decide (n < 16)
  | .portStartTransaction p => p.wf
  | .spFrameEnd n _ => decide (n < 16)
  | .spRetryWaitEnd n => decide (n < 16)
  | .dqsTimeout n => decide (n < 2)
  | .transactionComplete p => p.wf
  | .twCtrlEnable n _ => decide (n < 8)
  | .tgtEnable n _ => decide (n < 8)
  | .twCommit n => decide (n < 8)
  | .twAbort n => decide (n < 8)
  | .busclr n _ => decide (n < 8)
  | .autoBusClear n _ => decide (n < 8)
  | .twFrameEnd n _ => decide (n < 8)
  | .arbitrationLost n _ => decide (n < 8)
  | .twSclTimeout n => decide (n < 8)
  | .busFree n => decide (n < 8)
  | .targetAddressMatch n _ _ _ => decide (n < 8)
  | .cmdPut n _ => decide (n < 8)
  | .rspGet n _ => decide (n < 8)
  | .hubStatus n => decide (n < 8)
  | .eqPeek n => decide (n < 8)
  | .twLtolSet n _ => decide (n < 8)
  | .targetTimeout n => decide (n < 8)
  | .cmdPutTimeout n => decide (n < 8)
  | .txEnable i _ => decide (i < 128)
  | .txKick i => decide (i < 128)
  | .timeTriggerDue i => decide (i < 128)
  | .bankMSpacingEnd i => decide (i < 128)
  | .schCommit => true
  | .probeEnable j _ => decide (j < 64)
  | .probeRun j code _ => decide (j < 64) && decide (code ≤ 8)
  | .recSample r _ => decide (r < 128)
  | .winOpen r _ => decide (r < 128)
  | .winClose r _ => decide (r < 128)
  | .settleTimeout r => decide (r < 128)
  | .combineWinExpire r k => decide (r < 128 ∧ k < 4)
  | .recEnable r _ => decide (r < 128)
  | .recCommit r => decide (r < 128)
  | .eqInsert q _ => decide (q < 32)
  | .eqPush q bits _ => decide (q < 32) && decide (bits ∈ [8, 16, 32, 64, 128])
  | .eqHeadPop q _ => decide (q < 32)
  | .flush q => decide (q < 32)
  | .ringEnable n => decide (n < 128)
  | .ringDisable n => decide (n < 128)
  | .release n => decide (n < 128)
  | .rdIdxWrite n _ => decide (n < 128)
  | .datagramForm n _ => decide (n < 128)
  | .flushMsExpire n => decide (n < 128)
  | .taskRunStart e => decide (e < 72)
  | .interruptEntry e => decide (e < 72)
  | .budgetExceeded e => decide (e ≤ 72)
  | .readDataArrival e _ _ => decide (e ≤ 72)
  | .engRun e => decide (e < 72)
  | .engReset e => decide (e < 72)
  | .engHalt e => decide (e < 72)
  | .engResume e => decide (e < 72)
  | .engSwi e => decide (e < 72)
  | .engService by_ e _ => by_.wf && decide (e < 72)
  | .codeRamWrite by_ _ _ => by_.wf
  | .lockstepMismatch => true
  | .dwellStart k => decide (k < 4)
  | .dwellEnd k => decide (k < 4)
  | .shadowCopyDone => true
  | .shadowMismatch k _ => decide (k < 4)
  | .vote k _ => decide (k < 4)
  | .voteTimeout k => decide (k < 4)
  | .fieldRepairWrite _ => true
  | .schedulingChange => true
  | .rpNext => true
  | .plannerCycle failed => failed.all UnitId.wf
  | .guardStep c => decide (c < 32)
  | .monitorSample slack temp => decide (slack.length = 32 ∧ temp.length = 8)
  | .vminProbe b _ => decide (b < 16)
  | .thermalHistogramTick => true
  | .avsPgoodHigh => true
  | .avsFault => true
  | .clrAvs => true
  | .engPllRelock => true
  | .governorEvaluate => true
  | .powerEntry => true
  | .powerExit => true
  | .wakePin n _ => decide (n < 4)
  | .hostLinkWake => true
  | .alarm => true
  | .wakeHoldExpire => true
  | .hlSelect _ _ => true
  | .hlDeselect => true
  | .packetReceive t _ => decide (t ≤ 12)
  | .replyTaken t => decide (t ≤ 12)
  | .mgmtDatagram m _ => decide (m < 2)
  | .udpSlotExpire slot => decide (slot < 4)
  | .ping p => p.wf
  | .tableRead p => p.wf
  | .reset p => p.wf
  | .resetCause p => p.wf
  | .irqStatus p => p.wf
  | .sysRead p => p.wf
  | .sysWrite p => p.wf
  | .deviceId p => p.wf
  | .ctxRead p => p.wf
  | .ctxWrite p => p.wf
  | .streamStart p => p.wf
  | .streamStop p => p.wf
  | .streamStates p => p.wf
  | .bankRead p => p.wf
  | .bankWrite p => p.wf
  | .syncCommand p => p.wf
  | .schRead p => p.wf
  | .schWrite p => p.wf
  | .kick p => p.wf
  | .probeStates p => p.wf
  | .recRead p => p.wf
  | .recWrite p => p.wf
  | .eqPop p => p.wf
  | .eqPost p => p.wf
  | .ringRead p => p.wf
  | .ringWrite p => p.wf
  | .ringTake p => p.wf
  | .tnRead p => p.wf
  | .tnWrite p => p.wf
  | .timeNow p => p.wf
  | .epochSet p => p.wf
  | .tincSet p => p.wf
  | .ltolSet p => p.wf
  | .pwrRead p => p.wf
  | .pwrWrite p => p.wf
  | .hltRead p => p.wf
  | .hltWrite p => p.wf
  | .ageReport p => p.wf
  | .retire p => p.wf
  | .retest p _ => p.wf
  | .selftest p failed => p.wf && failed.all UnitId.wf
  | .secStatus p => p.wf
  | .dbgChallenge p => p.wf
  | .dbgResponse p => p.wf
  | .dbgClose p => p.wf
  | .lifecycleSet p _ => p.wf
  | .fwInfo p => p.wf
  | .fwStage p _ => p.wf
  | .fwCommit p _ => p.wf
  | .taskStage p => p.wf
  | .taskInstall p => p.wf
  | .taskRemove p => p.wf
  | .engRead p => p.wf
  | .memRead p => p.wf
  | .memWrite p => p.wf
  | .linkUp m _ => decide (m < 2)
  | .linkDown m => decide (m < 2)
  | .frameReceive m _ => decide (m < 2)
  | .ptpSyncReceive m _ => decide (m < 2)
  | .servoHold => true
  | .ptpMasterTx m _ => decide (m < 2)
  | .oneStepSyncTx m _ _ => decide (m < 2)
  | .lpiEnter m => decide (m < 2)
  | .ptpEnable _ => true
  | .mdioGo _ => true
  | .mdioDone _ _ => true
  | .keyStoreWrite by_ _ _ => by_.wf
  | .arbUpdate _ => true
  | .powerOnReset _ => true
  | .pinReset => true
  | .watchdogExpire => true
  | .commandReset => true
  | .wdtKick by_ _ => by_.wf
  | .boot _ => true
  | .bootRetry _ => true
  | .supplyLow _ => true
  | .supplyRestore _ => true
  | .xtalLost => true
  | .xtalReturn => true
  | .eqItemEligible q => decide (q < 32)
  | .twRetryWaitEnd n => decide (n < 8)
  | .avsSettleEnd => true
  | .delayRequestTx m => decide (m < 2)
  | .frameTransmit m _ _ => decide (m < 2)
  | .pauseExpire m => decide (m < 2)
  | .unknownOpcode _ p => p.wf
  | .tapReset => true
  | .captureIr => true
  | .extest => true
  | .samplePreload => true
  | .idcode => true
  | .clamp => true
  | .highz => true
  | .dbgacc => true
  | .healthrd => true
  | .bypass _ => true
  | .dbgaccUpdate _ => true
  | .healthrdCapture => true
  | .boundaryUpdate _ => true
  | .nop e _ => decide (e ≤ 72)
  | .dup e _ => decide (e ≤ 72)
  | .drop e _ => decide (e ≤ 72)
  | .swap e _ => decide (e ≤ 72)
  | .over e _ => decide (e ≤ 72)
  | .rot e _ => decide (e ≤ 72)
  | .nip e _ => decide (e ≤ 72)
  | .pick e _ _ => decide (e ≤ 72)
  | .lit8 e _ _ => decide (e ≤ 72)
  | .lit16 e _ _ => decide (e ≤ 72)
  | .lit32 e _ _ => decide (e ≤ 72)
  | .depth e _ => decide (e ≤ 72)
  | .add e _ => decide (e ≤ 72)
  | .sub e _ => decide (e ≤ 72)
  | .adc e _ => decide (e ≤ 72)
  | .sbc e _ => decide (e ≤ 72)
  | .neg e _ => decide (e ≤ 72)
  | .adds e _ => decide (e ≤ 72)
  | .subs e _ => decide (e ≤ 72)
  | .abs e _ => decide (e ≤ 72)
  | .min e _ => decide (e ≤ 72)
  | .max e _ => decide (e ≤ 72)
  | .minu e _ => decide (e ≤ 72)
  | .maxu e _ => decide (e ≤ 72)
  | .and e _ => decide (e ≤ 72)
  | .or e _ => decide (e ≤ 72)
  | .xor e _ => decide (e ≤ 72)
  | .not e _ => decide (e ≤ 72)
  | .shl e _ => decide (e ≤ 72)
  | .shr e _ => decide (e ≤ 72)
  | .sar e _ => decide (e ≤ 72)
  | .shli e _ _ => decide (e ≤ 72)
  | .shri e _ _ => decide (e ≤ 72)
  | .sari e _ _ => decide (e ≤ 72)
  | .mul e _ => decide (e ≤ 72)
  | .mulu e _ => decide (e ≤ 72)
  | .div e _ => decide (e ≤ 72)
  | .divu e _ => decide (e ≤ 72)
  | .divl e _ => decide (e ≤ 72)
  | .divlu e _ => decide (e ≤ 72)
  | .addi e _ _ => decide (e ≤ 72)
  | .sext e _ => decide (e ≤ 72)
  | .zext e _ => decide (e ≤ 72)
  | .cmp e _ _ => decide (e ≤ 72)
  | .tst e _ _ => decide (e ≤ 72)
  | .plog e _ _ => decide (e ≤ 72)
  | .pset e _ _ _ => decide (e ≤ 72)
  | .pushp e _ _ => decide (e ≤ 72)
  | .popp e _ _ => decide (e ≤ 72)
  | .pflag e _ _ => decide (e ≤ 72)
  | .ld e _ _ _ => decide (e ≤ 72)
  | .st e _ _ _ => decide (e ≤ 72)
  | .lea e _ _ _ => decide (e ≤ 72)
  | .addb e _ _ _ => decide (e ≤ 72)
  | .mfr e _ _ => decide (e ≤ 72)
  | .mtr e _ _ => decide (e ≤ 72)
  | .br e _ _ => decide (e ≤ 72)
  | .brl e _ _ => decide (e ≤ 72)
  | .bra e _ _ => decide (e ≤ 72)
  | .brla e _ _ => decide (e ≤ 72)
  | .bri e _ => decide (e ≤ 72)
  | .ret e _ => decide (e ≤ 72)
  | .loop e _ _ => decide (e ≤ 72)
  | .reti e _ => decide (e ≤ 72)
  | .tdone e _ _ => decide (e ≤ 72)
  | .trap e _ _ => decide (e ≤ 72)
  | .brk e _ => decide (e ≤ 72)
  | .post e _ _ _ _ => decide (e ≤ 72)
  | .fetch e _ _ _ _ => decide (e ≤ 72)
  | .ldr e _ _ _ _ => decide (e ≤ 72)
  | .stc e _ _ _ _ _ => decide (e ≤ 72)
  | .collect e _ _ _ => decide (e ≤ 72)
  | .cpyf e _ _ => decide (e ≤ 72)
  | .movs e _ => decide (e ≤ 72)
  | .fills e _ => decide (e ≤ 72)
  | .cmps e _ _ => decide (e ≤ 72)
  | .codewr e _ => decide (e ≤ 72)
  | .flushi e _ => decide (e ≤ 72)
  | .dmac e _ _ _ => decide (e ≤ 72)
  | .clracc e _ => decide (e ≤ 72)
  | .rdacc e _ => decide (e ≤ 72)
  | .rdaccs e _ => decide (e ≤ 72)
  | .undefinedOpcode e _ => decide (e ≤ 72)

end Sys2Proof
end

