-- ==== Sys2Proof/Certificates/Slice0/Obligations.lean ====
section
/-! DEFINITION. The statements for the provers: what each family of commands does to the machine, by the rules of the spec. Every statement about a
state asks that no SID 0 record waits in it, which no step leaves behind (StepKeepsSound). -/

open Sys2Proof Sys2Proof.Machine

/-! ### The block as a whole (R14, R15, R33, R63, R70) -/

/-- A step takes the command at the front of the queue and carries it out on the machine with the queue's rest. -/
def Obligations.StepTakesFront : Prop := ∀ (c : Instr) (s : State) (r : List Instr), s.pending = c :: r →
  step s = exec c { s with pending := r }

/-- With no command waiting a step is one tick of the hub's clock (R26, R70, R73, R74, R183; that it is so is the model's choice, log 1): TS
gains TINC at a TIME tick, the TINC of a commit that waits for this tick if there is one (R72), 62.5 ns in holdover and TINC_AON in BASIN, or
stands until the first lock; the first coarse set, where it waits, replaces it and makes the epoch stale; and what has come due joins the queue, a
wrap among it. -/
def Obligations.IdleStep : Prop := ∀ s : State, s.pending = [] → s.hub.sysq = [] → s.hub.outq = [] →
  let b := s.hub.tb
  let ticks := b.onCrystal = false ∧ b.holdover = false
  let inc := (if b.lock = true ∧ b.commitPend = true then s.hub.apply 0x20008 16 else s.hub).tinc
  ∃ t, step s = .next t ∧
    (ticks → b.lock = true → b.setPend = none → t.hub.tb.acc = b.acc + inc ∧ t.hub.now = s.hub.now + 256 ∧
      t.hub.tb.beat = (b.beat + 1) % 5 ∧ t.hub.tb.wraps = b.wraps) ∧
    (b.lock = true → t.hub.tb.commitPend = false) ∧ (b.lock = false → t.hub.tb.commitPend = b.commitPend) ∧
    (ticks → b.lock = false → t.hub.tb.acc = b.acc ∧ t.hub.tb.epochPhase = b.epochPhase % 64000000) ∧
    (∀ ts, ticks → b.lock = true → b.setPend = some ts → b.setDone = false → t.hub.tb.acc = ts ++ (0 : Word) ∧ t.hub.tb.setPend = none ∧
      t.hub.tb.setDone = true ∧ t.hub.tb.epochValid = false ∧ t.hub.tb.armed = false) ∧
    (b.onCrystal = false → b.holdover = true → b.lock = false → t.hub.tb.acc = b.acc + 0x3E80000000 ∧ t.hub.now = s.hub.now + 4000) ∧
    (b.onCrystal = true → b.lock = false → t.hub.tb.acc = b.acc + s.hub.tincAon) ∧
    (b.wrapDue = true ∨ ticks ∧ b.lock = true ∧ b.setPend = none ∧ b.acc.msb = true ∧ (b.acc + inc).msb = false →
      .wrap ∈ t.pending) ∧
    (b.halfDue = true ∨ ticks ∧ b.lock = true ∧ b.setPend = none ∧ b.acc.msb = false ∧ (b.acc + inc).msb = true →
      .halfwrap ∈ t.pending)

/-- What reset leaves (R26, R70, R71, R72, R225, R230, R240, R258, R397): TINC of 4 ns and no lock, no calendar, every stream IDLE, every queue
and ring empty and off, every engine in RESET with an empty stack, Mbonik not running, nothing waiting, and storage in its form. Storage that
lists nothing is the model's choice (log 2). -/
def Obligations.ResetState : Prop :=
  Safety.sound State.reset ∧ State.reset.pending = [] ∧ State.reset.mem = [] ∧
  (let h := State.reset.hub
   h.tinc = 0x400000000 ∧ h.tincAon = 131072000000000 ∧ h.tb.lock = false ∧ h.tb.epochValid = false ∧ h.tb.armed = false ∧ h.tb.wraps = 0 ∧
   h.mbonik = false ∧ h.hl.ready = false ∧ h.pwr.state = 0 ∧ h.flight = [] ∧ h.lay.gen = 0 ∧ h.fld 0x10060 0 3 = 1 ∧
   (∀ n, (h.strm n).state = .idle ∧ (h.eq_ n).items = [] ∧ (h.eq_ n).last = none ∧ (h.ring n).state = 0 ∧ (h.ring n).wr = 0 ∧
     (h.ring n).rd = 0 ∧ (h.eng n).stack = [] ∧ (h.eng n).pc = 0 ∧ (n < 72 → (h.eng n).st = .reset) ∧ (h.mac n).link = false))

/-- No behaviour is undefined (R14): every command on every state goes on, and the queue of those that wait stays as it is. -/
def Obligations.EveryCommandCompletes : Prop := ∀ (c : Instr) (s : State), ∃ t, exec c s = .next t ∧ t.pending = s.pending

/-- The machine's forms hold through every step (R15, R63): storage stays canonical, and every SID 0 record that a command forms has been
stored, or dropped, by its end. -/
def Obligations.StepKeepsSound : Prop := ∀ s t : State, Safety.sound s → step s = .next t → Safety.sound t

/-! ### Time base (R70 to R78) -/

/-- The calendar commands of the time base, ARM, DISARM and REPAIR and Mbonik's rearming (R75, R77, R78): each goes on, with
exactly this effect. -/
def Obligations.CalendarCommands : Prop := ∀ s : State, s.hub.sysq = [] →
  exec .tbArm s = .next { s with hub.tb.armed := true } ∧
  (s.hub.tb.wrapDue = false → exec .tbDisarm s = .next { s with hub.tb.armed := false }) ∧
  (s.hub.tb.wrapDue = true → exec .tbDisarm s = .next s) ∧
  (s.hub.tb.epochValid = false → s.hub.tb.armed = false →
    exec .tbRepair s = .next { s with hub.tb.repairPend := true }) ∧
  (s.hub.tb.epochValid = true ∨ s.hub.tb.armed = true →
    exec .tbRepair s = .next { s with hub := s.hub.setReg 0x2007C (setBits (s.hub.reg 0x2007C) 3 1 1) }) ∧
  (s.hub.mbonik = true → s.hub.tb.epochValid = true → s.hub.tb.armed = false →
    ∃ t, exec .epochRearm s = .next t ∧ t.hub.tb = { s.hub.tb with armed := true, rearmDue := false } ∧
      let next := s.hub.tb.epochS.toNat * 1000000000 + s.hub.tb.epochNs.toNat + 2 ^ 32
      t.hub.reg 0x20048 = BitVec.ofNat 32 (next % 1000000000) ∧
      t.hub.reg 0x20040 = BitVec.ofNat 32 (next / 1000000000) ∧
      t.hub.reg 0x20044 = BitVec.ofNat 32 (next / 1000000000 % 2 ^ 48 / 2 ^ 32) ∧
      (∀ a, a ≠ 0x20040 → a ≠ 0x20044 → a ≠ 0x20048 → t.hub.reg a = s.hub.reg a) ∧
      t = { s with hub.tb := t.hub.tb, hub.regs := t.hub.regs }) ∧
  (s.hub.mbonik = false ∨ s.hub.tb.epochValid = false ∨ s.hub.tb.armed = true →
    exec .epochRearm s = .next { s with hub.tb.rearmDue := false })

/-- The servo's commit and the coarse set (R72, R73): the range check of COMMIT, the tick at which it acts, and TS_SET, of which only the
first since reset is taken. A wrap and a half-wrap (R62, R74 to R76) in every power state, of which BASIN alone forms no records: what is counted,
the records in their order, and what becomes of EPOCH. -/
def Obligations.TimeBaseEvents : Prop := ∀ s : State, s.hub.sysq = [] →
  let b := s.hub.tb
  let tinc := s.hub.seenFld 0x2000C 0 8 * 2 ^ 32 + s.hub.seenFld 0x20008 0 32
  let records := fun (h : Hub) (l : List Record) => if s.hub.pwr.state = 4 then s.withHub h else l.foldl State.sysStore (s.withHub h)
  let sec : BitVec 48 := BitVec.ofNat 48 (s.hub.fld 0x20044 0 16 * 2 ^ 32 + s.hub.fld 0x20040 0 32)
  let wrapped : TimeBase := { b with wraps := b.wraps + 1, wrapDue := false }
  let swapped : Hub := { s.hub with
    tb := { wrapped with epochS := sec, epochNs := BitVec.ofNat 30 (s.hub.fld 0x20048 0 30), epochValid := true, armed := false, staleWraps := 0 },
    ptp := if s.hub.ptp.state = 3 then { s.hub.ptp with state := 2 } else s.hub.ptp }
  let stale : Hub := { s.hub.setReg 0x2007C (setBits (s.hub.reg 0x2007C) 4 1 1) with
    tb := { wrapped with epochValid := false, staleWraps := b.staleWraps + 1 } }
  (0x3E0000000 ≤ tinc → tinc ≤ 0x420000000 →
    exec .tbCommit s = .next (s.withHub { s.hub.capture 0x20008 16 with tb := { b with commitPend := true } })) ∧
  (tinc < 0x3E0000000 ∨ 0x420000000 < tinc →
    ∃ t, exec .tbCommit s = .next t ∧ t.hub.tb = { b with commitPend := false } ∧
      (∀ a, 0x20008 ≤ a → a < 0x20018 → t.hub.seen a = s.hub.reg a) ∧
      t.hub.bit 0x2007C 0 = true ∧ (∀ a, a ≠ 0x2007C → t.hub.reg a = s.hub.reg a) ∧
      t = s.withHub { s.hub with tb := t.hub.tb, held := t.hub.held, capt := t.hub.capt, regs := t.hub.regs }) ∧
  (b.lock = true → b.commitPend = true →
    exec .tincApply s = .next (s.withHub { s.hub.apply 0x20008 16 with tb := { b with commitPend := false } })) ∧
  (b.lock = false ∨ b.commitPend = false → exec .tincApply s = .next s) ∧
  (∀ ts, b.setDone = false → b.setPend = none →
    exec (.tsSet ts) s = .next (s.withHub { s.hub with tb := { b with setPend := some ts } })) ∧
  (∀ ts, b.setDone = true ∨ b.setPend.isSome = true →
    exec (.tsSet ts) s = .next (s.withHub (s.hub.setReg 0x2007C (setBits (s.hub.reg 0x2007C) 2 1 1)))) ∧
  (exec .halfwrap s = .next (records { s.hub with tb := { b with halfwraps := b.halfwraps + 1, halfDue := false, rearmDue := s.hub.mbonik } }
    [hubEvent 0x02 0 (b.halfwraps + 1) s.hub.instant 0xFFFF])) ∧
  (b.armed = true → exec .wrap s = .next (records swapped
    [hubEvent 0x01 0 (b.wraps + 1) s.hub.instant 0xFFFF, hubEvent 0x03 0 (sec.setWidth 40) s.hub.instant 0xFFFF])) ∧
  (b.armed = false → exec .wrap s = .next (records (stale.health 0x0002 0 0x81 ((b.wraps + 1).toNat % 65536))
    [hubEvent 0x01 0 (b.wraps + 1) s.hub.instant 0xFFFF, hubEvent 0x04 0 (b.wraps + 1) s.hub.instant 0xFFFF]))

/-! ### Event queues and batch rings (R219 to R236) -/

/-- Insertion, eligibility 32 FAB cycles, 40 ns, later and FLUSH of a queue (R219 to R221, R224): what the queue holds after each, and that nothing
else changes. -/
def Obligations.QueueCommands : Prop := ∀ (s : State) (q : Nat), s.hub.sysq = [] → q < 32 →
  (∀ r, (s.hub.eq_ q).items.length < 32 →
    exec (.eqInsert q r) s = .next (s.withHub (s.hub.setEq q
      { s.hub.eq_ q with items := (s.hub.eq_ q).items ++ [{ rcd := r, at_ := s.hub.now, ripe := false }] }))) ∧
  (∀ r, 32 ≤ (s.hub.eq_ q).items.length →
    exec (.eqInsert q r) s = .next (s.withHub ((s.hub.setEq q
      { s.hub.eq_ q with items := (s.hub.eq_ q).items.drop 1 ++ [{ rcd := r, at_ := s.hub.now, ripe := false }] }).setFld
        (0xD0024 + 0x100 * q) 0 16 (min 65535 (s.hub.fld (0xD0024 + 0x100 * q) 0 16 + 1))))) ∧
  (∀ item : BitVec 128, (unpackRecord item).flg.getLsbD 3 = true → 0x80 ≤ recCode (unpackRecord item) →
    exec (.eqPush q 128 item) s = exec (.eqInsert q (unpackRecord item)) s) ∧
  (∀ n (item : BitVec 128), n ≠ 128 ∨ (unpackRecord item).flg.getLsbD 3 = false ∨ recCode (unpackRecord item) < 0x80 →
    exec (.eqPush q n item) s = .next (s.withHub (s.hub.flag eqErr 2 q))) ∧
  (∀ a x b, (s.hub.eq_ q).items = a ++ x :: b → (∀ y ∈ a, y.ripe = true) → x.ripe = false → x.at_ + 2560 ≤ s.hub.now →
    exec (.eqItemEligible q) s = .next (s.withHub (s.hub.setEq q
      { s.hub.eq_ q with items := a ++ { x with ripe := true } :: b }))) ∧
  ((∀ x ∈ (s.hub.eq_ q).items, x.ripe = true ∨ s.hub.now < x.at_ + 2560) →
    exec (.eqItemEligible q) s = .next (s.withHub (s.hub.setEq q (s.hub.eq_ q)))) ∧
  exec (.flush q) s = .next (s.withHub (s.hub.setEq q { s.hub.eq_ q with items := [] }))

/-- A pop (R220, R222, R223, R225): of the eligible items the one returned has the highest priority and among those arrived first; it
leaves the queue, and the queue keeps its order. With none eligible, whether the queue is empty or every item is too young, the value of the
last pop, or zero before any, is read again, nothing is removed and UNDERRUN sets. A stage that fails parity is discarded and counted, and
the pop takes the next. EMPTY reads 1 only when no item is held, READY when one is eligible. -/
def Obligations.QueuePop : Prop := ∀ (s : State) (q : Nat), s.hub.sysq = [] → q < 32 →
  (∀ a x b, (s.hub.eq_ q).items = a ++ x :: b → x.ripe = true →
    (∀ y ∈ a, y.ripe = true → recPri y.rcd < recPri x.rcd) → (∀ y ∈ b, y.ripe = true → recPri y.rcd ≤ recPri x.rcd) →
    let rest := s.withHub ((s.hub.setEq q { s.hub.eq_ q with items := a ++ b }).parityError 0xDF040 0x0040 q)
    (x.bad = false → exec (.eqHeadPop q false) s = .next (s.withHub
      ({ (s.hub.setEq q { items := a ++ b, last := some x.rcd }).copyLow (0xD0000 + 0x100 * q) (packRecord x.rcd) with
        readData := ((packRecord x.rcd).setWidth 32).setWidth 128 }))) ∧
    (x.bad = true → exec (.eqHeadPop q false) s = exec (.eqHeadPop q false) rest) ∧
    exec (.eqHeadPop q true) s = exec (.eqHeadPop q false) rest) ∧
  ((∀ x ∈ (s.hub.eq_ q).items, x.ripe = false) →
    let v := ((s.hub.eq_ q).last.map packRecord).getD 0
    exec (.eqHeadPop q false) s = .next (s.withHub ({ (s.hub.setFld (0xD0020 + 0x100 * q) 10 1 1).copyLow (0xD0000 + 0x100 * q) v with
        readData := (v.setWidth 32).setWidth 128 }))) ∧
  (∃ t, exec (.rcRead .col (0xD0020 + 0x100 * q) 4) s = .next t ∧ t = s.withHub { s.hub with readData := t.hub.readData } ∧
    (t.hub.readData.getLsbD 8 = true ↔ (s.hub.eq_ q).items = []) ∧
    (t.hub.readData.getLsbD 9 = true ↔ ∃ x ∈ (s.hub.eq_ q).items, x.ripe = true) ∧
    t.hub.readData.getLsbD 10 = s.hub.bit (0xD0020 + 0x100 * q) 10)

/-- What a ring takes from software (R228, R230, R233, R234): a checked enable clears the indices and the count, a disable keeps them,
a release leaves both indices, and RD_IDX takes only a value from itself to WR_IDX. -/
def Obligations.RingCommands : Prop := ∀ (s : State) (n : Nat), s.hub.sysq = [] → n < 128 →
  (s.hub.ringOn n = false → s.hub.ringChecks n = (false, false, false) →
    exec (.ringEnable n) s = .next (s.withHub ({ (s.hub.setFld (ringReg n 0) 0 1 1).setRing n { s.hub.ring n with
        state := 1, wr := 0, rd := 0, count := 0, dates := [] } with dgSeq := tdel s.hub.dgSeq n, dgDue := s.hub.dgDue.erase n }))) ∧
  (s.hub.ringOn n = false → s.hub.ringChecks n ≠ (false, false, false) →
    ∃ t, exec (.ringEnable n) s = .next t ∧ t.hub.ringOn n = false ∧ t.hub.ring n = s.hub.ring n ∧
      t.hub.bit 0xEF07C 0 = ((s.hub.ringChecks n).1 || s.hub.bit 0xEF07C 0) ∧
      t.hub.bit 0xEF07C 3 = ((s.hub.ringChecks n).2.1 || s.hub.bit 0xEF07C 3) ∧
      t.hub.bit 0xEF07C 4 = ((s.hub.ringChecks n).2.2 || s.hub.bit 0xEF07C 4) ∧
      t = { s with hub.regs := t.hub.regs } ∧ ∀ a, a ≠ 0xEF07C → t.hub.reg a = s.hub.reg a) ∧
  (s.hub.ringOn n = true → exec (.ringEnable n) s = .next s) ∧
  (s.hub.ringOn n = true → exec (.ringDisable n) s = .next (s.withHub ((s.hub.setFld (ringReg n 0) 0 1 0).setRing n { s.hub.ring n with state := 0 }))) ∧
  (s.hub.ringOn n = false → exec (.ringDisable n) s = .next s) ∧
  ((s.hub.ring n).state = 3 → exec (.release n) s = .next (s.withHub (s.hub.setRing n { s.hub.ring n with state := 1 }))) ∧
  ((s.hub.ring n).state ≠ 3 → exec (.release n) s = .next s) ∧
  (∀ v : Word, s.hub.fld (ringReg n 8) 1 2 = 0 → (v - (s.hub.ring n).rd).toNat ≤ ((s.hub.ring n).wr - (s.hub.ring n).rd).toNat →
    exec (.rdIdxWrite n v) s = .next (s.withHub (s.hub.setRing n { s.hub.ring n with rd := v }))) ∧
  (∀ v : Word, s.hub.fld (ringReg n 8) 1 2 ≠ 0 ∨ ((s.hub.ring n).wr - (s.hub.ring n).rd).toNat < (v - (s.hub.ring n).rd).toNat →
    exec (.rdIdxWrite n v) s = .next (s.withHub (s.hub.flag ringErr 2 n)))

/-- A record reaches an enabled ring (R229): with room it is written at WR_IDX; full under STOP it is dropped and counted; full under
WRAP the oldest unread record is given up and counted; FROZEN drops it. Storage changes nowhere else. -/
def Obligations.RingPolicy : Prop := ∀ (s : State) (n : Nat) (r : Record), n < 128 →
  let g := s.hub.ring n
  let t := s.ringWrite n r
  let base := s.hub.recordAddr n g.wr
  (g.state = 1 → g.fill < s.hub.ringCap n →
    (t.hub.ring n).wr = g.wr + 1 ∧ (t.hub.ring n).rd = g.rd ∧ (∀ i, i < 16 → memGet t.mem (base + i) = (recordBytes r).getD i 0) ∧
    ∀ a, a < base ∨ base + 16 ≤ a → memGet t.mem a = memGet s.mem a) ∧
  (g.state = 1 → s.hub.ringCap n ≤ g.fill → s.hub.bit (ringReg n 8) 0 = false →
    t = (s.withHub (s.hub.bump (ringReg n 0x28) 0 16 1))) ∧
  (g.state = 1 → s.hub.ringCap n ≤ g.fill → s.hub.bit (ringReg n 8) 0 = true →
    (t.hub.ring n).wr = g.wr + 1 ∧ (t.hub.ring n).rd = g.rd + 1 ∧
    t.hub.fld (ringReg n 0x28) 16 16 = min 65535 (s.hub.fld (ringReg n 0x28) 16 16 + 1) ∧
    (∀ i, i < 16 → memGet t.mem (base + i) = (recordBytes r).getD i 0) ∧
    ∀ a, a < base ∨ base + 16 ≤ a → memGet t.mem a = memGet s.mem a) ∧
  (g.state = 3 → t = (s.withHub (s.hub.bump (ringReg n 0x2C) 0 16 1)))

/-! ### Streams and records (R50 to R69) -/

/-- START (R65, R66): refused while the stream is not IDLE; a failing check leaves it IDLE with its CAUSE and START_REJ; else it goes to
ARMED with nothing of an earlier run left, posting STREAM_STATE. No other stream changes. STOP and the end of draining (R66, R68, R69,
R289): an ARMED stream goes to IDLE at once, a RUNNING, WAITING or FAULT one drains and drops its open record, unless a hold keeps
outputs formed before STOP, and a DRAINING one with no record between the stamp unit and its ring goes to IDLE. -/
def Obligations.StreamStartAndStop : Prop :=
  (∀ (s : State) (sid : Nat), s.hub.sysq = [] → 1 ≤ sid → sid ≤ 255 → s.hub.pwr.state ≠ 4 →
  let x := s.hub.strm sid
  (x.state ≠ .idle → exec (.ctxStart sid) s = .next (s.withHub (s.hub.flag (ctxErr sid) 3 0))) ∧
  (∀ c, x.state = .idle → s.hub.startCheck sid = some c →
    exec (.ctxStart sid) s = .next (s.withHub ((s.hub.setStrm sid { x with cause := BitVec.ofNat 4 c }).flag (ctxErr sid) 2 0))) ∧
  (x.state = .idle → s.hub.startCheck sid = none →
    ∃ h : Hub, exec (.ctxStart sid) s = .next (State.sysStore (s.withHub h)
        (hubEvent 0x10 sid (BitVec.ofNat 40 (1 + x.cause.toNat * 256)) s.hub.instant 0xFFFF)) ∧
      h.strm sid = { x with
        state := .armed, slots := [], pos := none, pass := false, grid := 0, lat := none, closing := 0, gap := false, fresh := true, edges := 0,
        detach := s.hub.sourceAbsent sid, clock := s.hub.tb.holdover, power := s.hub.sourceOff sid, lastEng := none } ∧
      (∀ k, k ≠ sid → h.strm k = s.hub.strm k) ∧ h.regs = s.hub.regs ∧ h.flight = s.hub.flight)) ∧
  (∀ (s : State) (sid : Nat), s.hub.sysq = [] → 1 ≤ sid → sid ≤ 255 → s.hub.pwr.state ≠ 4 →
  let x := s.hub.strm sid
  let event (old new : StreamState) : Record := hubEvent 0x10 sid (BitVec.ofNat 40 (new.code + old.code * 16 + x.cause.toNat * 256))
    s.hub.instant 0xFFFF
  let idle : Stream := { x with state := .idle, slots := [], pending := false, gap := false, fresh := true, closing := 0 }
  (x.state = .armed → ∃ h : Hub, exec (.ctxStop sid) s = .next (State.sysStore (s.withHub h) (event .armed .idle)) ∧
    h.strm sid = idle ∧ (∀ k, k ≠ sid → h.strm k = s.hub.strm k) ∧ h.flight = s.hub.flight) ∧
  (x.state = .running ∨ x.state = .waiting ∨ x.state = .fault →
    ∃ h : Hub, exec (.ctxStop sid) s = .next (State.sysStore (s.withHub h) (event x.state .draining)) ∧
      h.strm sid = (if s.hub.onHold sid then { x with state := .draining } else { x with state := .draining, slots := [], gap := false }) ∧
      (∀ k, k ≠ sid → h.strm k = s.hub.strm k) ∧ h.regs = s.hub.regs ∧ h.flight = s.hub.flight) ∧
  (x.state = .idle ∨ x.state = .draining → exec (.ctxStop sid) s = .next s) ∧
  (x.state = .draining → s.hub.oldest sid = none → s.hub.onHold sid = false →
    ∃ h : Hub, exec (.streamDrainComplete sid) s = .next (State.sysStore (s.withHub h) (event .draining .idle)) ∧
      h.strm sid = idle ∧ (∀ k, k ≠ sid → h.strm k = s.hub.strm k)) ∧
  (x.state ≠ .draining ∨ (s.hub.oldest sid).isSome ∨ s.hub.onHold sid = true → exec (.streamDrainComplete sid) s = .next s))

/-- COMMIT of a context (R64): what was written is captured, and takes effect at once in IDLE, else at the next record. -/
def Obligations.StreamCommit : Prop := ∀ (s : State) (sid : Nat), s.hub.sysq = [] → 1 ≤ sid → sid ≤ 255 →
  ((s.hub.strm sid).state = .idle →
    exec (.ctxCommit sid) s = .next (s.withHub ((s.hub.capture (ctxReg sid 0) 64).apply (ctxReg sid 0) 64)) ∧
    ∀ a v, ctxReg sid 0 ≤ a → a < ctxReg sid 0 + 64 → s.hub.capt = [] → s.hub.held = [(a, v)] →
      ∃ t, exec (.ctxCommit sid) s = .next t ∧
        t.hub.reg a = (s.hub.reg a &&& ~~~ shMask (fieldsAt a)) ||| (v &&& shMask (fieldsAt a)) ∧ t.hub.held = [] ∧ t.hub.capt = []) ∧
  ((s.hub.strm sid).state ≠ .idle →
    exec (.ctxCommit sid) s = .next (s.withHub
      ((s.hub.capture (ctxReg sid 0) 64).setStrm sid { s.hub.strm sid with pending := true })))

/-- The stamp unit forms a record (R54 to R59, R64, R80): a stream whose source is held away drops the sample; on a RUNNING stream a sample
that leaves slots open is kept in the open record; the sample that fills the last slot closes it, and the record goes to stages 6 to 8
with the instant of its first slot, its payload and its flags, and the ring and taps then in force. Of the samples handed over before a boundary that
is to close the record, each that is dropped or taken leaves one fewer. -/
def Obligations.RecordForming : Prop := ∀ (s : State) (sid : Nat) (m : Sample), s.hub.sysq = [] →
  let x := s.hub.strm sid
  let left := s.hub.handoff.erase (sid, m)
  let slots := x.slots ++ [toSlot (s.hub.fmt sid) m]
  let t0 := if x.slots.isEmpty then m.instant else x.t0
  let lat := (if x.slots.isEmpty then m.lat else x.lat).getD (s.hub.reg (ctxReg sid 0x14))
  let still := x.closing = 0 ∨ (sid, m) ∉ s.hub.handoff
  (still → (sidOk sid = false ∨ s.hub.forms sid = false) → exec (.recordForm sid m) s = .next { s with hub.handoff := left }) ∧
  (∀ k, (sid, m) ∈ s.hub.handoff → x.closing = k + 2 → (sidOk sid = false ∨ s.hub.forms sid = false) →
    exec (.recordForm sid m) s = .next (s.withHub (Hub.setStrm { s.hub with handoff := left } sid { x with closing := k + 1 }))) ∧
  (still → sidOk sid = true → s.hub.forms sid = true → x.state = .running → m.gap = false → m.fresh = false →
    (x.slots = [] ∨ x.pass = m.pass) →
    (slots.length < slotCount (s.hub.fmt sid) →
      ∃ t, exec (.recordForm sid m) s = .next t ∧ (t.hub.strm sid).slots = slots ∧ (t.hub.strm sid).t0 = t0 ∧
        (t.hub.strm sid).records = x.records ∧ t.hub.flight = s.hub.flight ∧ t.hub.regs = s.hub.regs ∧ t.mem = s.mem ∧
        ∀ k, k ≠ sid → t.hub.strm k = s.hub.strm k) ∧
    (slotCount (s.hub.fmt sid) ≤ slots.length → x.pending = false → m.pos = none → x.pos = none → m.pass = false →
      ∃ t f, exec (.recordForm sid m) s = .next t ∧ t.hub.flight = (passSeven sid (s.hub.flight ++ [f])).1 ∧
        t.hub.taps = s.hub.taps ++ (passSeven sid (s.hub.flight ++ [f])).2.flatMap (fun g => g.taps.map (fun k => (k, g))) ∧
        f.dest = s.hub.reg (ctxReg sid 0x1C) ∧ f.taps = s.hub.tapsOf sid ∧
        f.stage = (if s.hub.taskEn sid then .toTask false else .result) ∧ f.sid = sid ∧ f.seq = x.records + 1 ∧
        (t.hub.strm sid).slots = [] ∧ (t.hub.strm sid).records = x.records + 1 ∧ (t.hub.strm sid).gap = false ∧
        (let at_ := stated t0 lat
         let place := s.hub.posAt (s.hub.domain sid) (at_.setWidth 72 <<< 36)
         f.rcd.ts = tsOf at_ ∧ f.rcd.tsf = tsfOf at_ ∧ f.rcd.sid = BitVec.ofNat 8 sid ∧ f.rcd.pos = place.1 ∧
         f.rcd.flg.getLsbD 0 = slots.any (fun k => k.sat) ∧ f.rcd.flg.getLsbD 1 = x.gap ∧ f.rcd.flg.getLsbD 2 = place.2 ∧
         f.rcd.flg.getLsbD 3 = false ∧
         f.rcd.pay = payload (s.hub.fmt sid) ((s.hub.kind sid == 2 || s.hub.kind sid == 3) && s.hub.bank sid == 0) slots) ∧
        t.mem = s.mem ∧ ∀ k, k ≠ sid → t.hub.strm k = s.hub.strm k))

/-- Stages 7 and 8 (R16, R18, R64, R66, R229): a record passes stage 7 unless it or an earlier record of its stream is with a task; the oldest
record of a stream that has passed it goes, with STORE, to its ring, both as in force when it was formed; with STORE to a ring that is off, a RUNNING
stream goes to FAULT, its open record discarded and the record counted in GAPS. A record that has not passed stage 7, or none, waits. -/
def Obligations.RecordStoring : Prop := ∀ (s : State) (sid : Nat), s.hub.sysq = [] →
  (s.hub.oldest sid = none → exec (.recordStore sid) s = .next s) ∧
  (∀ f, s.hub.oldest sid = some f → (f.stage = .result ∨ f.stage = .inTask ∨ (∃ r, f.stage = .toTask r) ∨ ∃ u, f.stage = .held u) →
    exec (.recordStore sid) s = .next s) ∧
  (∀ a f r, (∀ g ∈ a, g.sid = sid → g.stage = .ready ∨ g.stage = .none) → f.sid = sid →
    ((f.stage = .inTask ∨ (∃ k, f.stage = .toTask k) ∨ ∃ u, f.stage = .held u) → passSeven sid (a ++ f :: r) = (a ++ f :: r, [])) ∧
    (f.stage = .result → (passSeven sid (a ++ f :: r)).1 = a ++ { f with stage := .ready } :: (passSeven sid r).1 ∧
      (passSeven sid (a ++ f :: r)).2 = { f with stage := .ready } :: (passSeven sid r).2)) ∧
  (∀ f, s.hub.oldest sid = some f → f.stage = .none →
    exec (.recordStore sid) s = .next { s with hub.flight := dropFlight sid s.hub.flight }) ∧
  (∀ f, s.hub.oldest sid = some f → f.stage = .ready →
    let passed : Hub := { s.hub with flight := dropFlight sid s.hub.flight }
    let n := bits f.dest 0 7
    let calm := (s.hub.hsl (s.hub.slice sid)).pending = false ∧ (s.hub.msl (s.hub.slice sid)).pending = false ∧
      (s.hub.rsl (s.hub.rsmp sid)).pending = false
    (f.dest.getLsbD 7 = false → exec (.recordStore sid) s = .next (s.withHub passed)) ∧
    (f.dest.getLsbD 7 = true → s.hub.ringOn n = true →
      exec (.recordStore sid) s = .next ((s.withHub passed).ringWrite n f.rcd)) ∧
    (f.dest.getLsbD 7 = true → s.hub.ringOn n = false → (s.hub.strm sid).state = .running → s.hub.pwr.state ≠ 4 → calm →
      ∃ h : Hub, exec (.recordStore sid) s = .next (State.sysStore (s.withHub h)
          (hubEvent 0x10 sid (BitVec.ofNat 40 (5 + 2 * 16 + 7 * 256)) s.hub.instant 0xFFFF)) ∧
        h.strm sid = { s.hub.strm sid with state := .fault, cause := 7, slots := [], pos := none, grid := 0, lat := none } ∧
        ((s.hub.strm sid).fresh = false →
          h.fld (ctxReg sid 0x38) 0 16 = min 65535 (s.hub.fld (ctxReg sid 0x38) 0 16 + 1)) ∧ ∀ k, k ≠ sid → h.strm k = s.hub.strm k))

/-! ### Scheduler (R181 to R194) -/

/-- A trigger of an entry (R183, R184, R188, R192): TX_KICK, and a TIME trigger at its due instant, which also sets the next. With a
place it enters its port's queue with the fields in force; while a transaction is in flight, or the queue is full, it is held; a second
one is discarded and counted in OVERRUN. An entry that is off, or whose port is off, does nothing. -/
def Obligations.TriggerCommands : Prop := ∀ (s : State) (i : Nat), s.hub.sysq = [] → i < 128 →
  let x := s.hub.txe i
  let p := s.hub.txPort i
  let on := s.hub.txOn i = true ∧ s.hub.portOn s.hub.pwr.state p = true
  let counted : Hub := { s.hub with seq := s.hub.seq + 1 }
  (on → s.hub.entryAbsent i = false → x.held = none → x.queued = false → x.active = false → s.hub.spaced i = false →
    (s.hub.pq p).waiting.length < 16 →
    exec (.txKick i) s = .next (s.withHub ((counted.setTxe i { x with queued := true, spaced := false }).setPq p
      { s.hub.pq p with waiting := (s.hub.pq p).waiting ++ [s.hub.txnOf i] }))) ∧
  (on → s.hub.entryAbsent i = false → x.held = none → x.queued = true → x.active = false →
    exec (.txKick i) s = .next (s.withHub (counted.setTxe i { x with held := some (s.hub.txnOf i), spaced := false }))) ∧
  (on → s.hub.entryAbsent i = false → x.held.isSome →
    exec (.txKick i) s = .next (s.withHub (counted.setFld (txReg i 0x1C) 0 16 (min 65535 (s.hub.fld (txReg i 0x1C) 0 16 + 1))))) ∧
  (¬ on → exec (.txKick i) s = .next s) ∧
  (∀ d, s.hub.trig i = 0 → on → x.due = some d → before s.hub.ts d = false →
    exec (.timeTriggerDue i) s = exec (.txKick i) (s.withHub
      (s.hub.setTxe i { x with due := some (d + BitVec.ofNat 32 (s.hub.reg (txReg i 0xC)).toNat) }))) ∧
  (∀ d, s.hub.trig i = 0 → on → s.hub.entryAbsent i = false → x.due = some d → before s.hub.ts d = false → x.held = none → x.queued = false →
    x.active = false → s.hub.spaced i = false → (s.hub.pq p).waiting.length < 16 →
    ∃ t, exec (.timeTriggerDue i) s = .next t ∧
      t.hub.txe i = { x with queued := true, spaced := false, due := some (d + BitVec.ofNat 32 (s.hub.reg (txReg i 0xC)).toNat) } ∧
      (t.hub.pq p).waiting = (s.hub.pq p).waiting ++ [s.hub.txnOf i] ∧ t.hub.regs = s.hub.regs ∧ t.mem = s.mem) ∧
  (s.hub.trig i ≠ 0 ∨ s.hub.txOn i = false ∨ x.due = none ∨ (∃ d, x.due = some d ∧ before s.hub.ts d = true) →
    exec (.timeTriggerDue i) s = .next s)

/-- The Bank M spacing (R192), EN of an entry (R182, R185, R193) and the scheduler's COMMIT (R183). EN written 0 withdraws a transaction that waits, which
completes with NOREPLY, but one whose trigger fell due in the same instant is discarded. -/
def Obligations.SchedulerCommands : Prop := ∀ (s : State) (i : Nat), s.hub.sysq = [] → i < 128 →
  let x := s.hub.txe i
  let p := s.hub.txPort i
  (∀ t, x.held = some t → x.spaced = true → s.hub.spaced i = false → x.queued = false → x.active = false →
    (s.hub.pq p).waiting.length < 16 →
    ∃ t', exec (.bankMSpacingEnd i) s = .next t' ∧ t'.hub.txe i = { x with held := none, spaced := false, queued := true } ∧
      (∀ k, k ≠ i → t'.hub.txe k = s.hub.txe k) ∧ (t'.hub.pq p).waiting = (s.hub.pq p).waiting ++ [t] ∧
      t' = { s with hub.tx := t'.hub.tx, hub.queues := t'.hub.queues }) ∧
  (x.held = none ∨ x.spaced = false ∨ s.hub.spaced i = true → exec (.bankMSpacingEnd i) s = .next s) ∧
  (s.hub.txOn i = false → entryOk i (s.hub.reg (txReg i 4)) (s.hub.reg (txReg i 8)) = true → s.hub.trig i = 0 →
    exec (.txEnable i true) s = .next (s.withHub ((s.hub.setFld (txReg i 0) 0 1 1).setTxe i { x with
      due := some (BitVec.ofNat 32 (firstDue s.hub.ts.toNat (s.hub.reg (txReg i 0xC)).toNat (s.hub.reg (txReg i 0x10)).toNat)) }))) ∧
  (s.hub.txOn i = false → entryOk i (s.hub.reg (txReg i 4)) (s.hub.reg (txReg i 8)) = true → s.hub.trig i ≠ 0 →
    exec (.txEnable i true) s = .next (s.withHub ((s.hub.setFld (txReg i 0) 0 1 1).setTxe i { x with due := none }))) ∧
  (s.hub.txOn i = false → entryOk i (s.hub.reg (txReg i 4)) (s.hub.reg (txReg i 8)) = false →
    exec (.txEnable i true) s = .next (s.withHub (s.hub.flag schErr 0 i))) ∧
  (s.hub.txOn i = true → exec (.txEnable i true) s = .next s) ∧
  (s.hub.txOn i = false → exec (.txEnable i false) s = .next s) ∧
  (s.hub.txOn i = true → (∀ t ∈ (s.hub.pq p).waiting, t.src ≠ .entry i) →
    ∃ t, exec (.txEnable i false) s = .next t ∧ t.hub.txOn i = false ∧
      t.hub.txe i = { x with held := none, spaced := false, due := none } ∧
      (∀ k, t.hub.pq k = s.hub.pq k) ∧ (∀ k, k ≠ i → t.hub.txe k = s.hub.txe k) ∧ t.mem = s.mem) ∧
  (s.hub.txOn i = true → (∃ t ∈ (s.hub.pq p).waiting, t.src = .entry i) →
    ∃ t, exec (.txEnable i false) s = .next t ∧ t.hub.txOn i = false ∧ t.mem = s.mem ∧
      ((∀ u ∈ (s.hub.pq p).waiting, u.src = .entry i → u.at_ ≠ s.hub.now) →
        t.hub.txe i = { x with held := none, spaced := false, queued := false, due := none, last := 3 }) ∧
      ((∃ u ∈ (s.hub.pq p).waiting, u.src = .entry i ∧ u.at_ = s.hub.now) →
        t.hub.txe i = { x with held := none, spaced := false, queued := false, due := none } ∧ (∀ k, k ≠ i → t.hub.txe k = s.hub.txe k) ∧
        (t.hub.pq p).waiting = (s.hub.pq p).waiting.filter (fun u => decide (u.src ≠ .entry i)))) ∧
  ((∀ k, k < 128 → s.hub.txOn k = true → entryOk k (s.hub.seen (txReg k 4)) (s.hub.seen (txReg k 8)) = true) →
    exec .schCommit s = .next (s.withHub { s.hub.capture 0x90000 0x1000 with schPend := true })) ∧
  (s.hub.txOn i = true → entryOk i (s.hub.seen (txReg i 4)) (s.hub.seen (txReg i 8)) = false →
    ∃ t, exec .schCommit s = .next t ∧ t.hub.schPend = false ∧ t.hub.bit 0x9F07C 2 = true ∧
      (∀ a, 0x90000 ≤ a → a < 0x91000 → t.hub.seen a = s.hub.reg a) ∧ t.mem = s.mem)

/-! ### Crank angle and track distance (R89 to R111, R440) -/

/-- EN, RESYNC and the stall of the crank decoder (R91, R93, R94): the state entered, its cause, the SYNC record posted where no grid
stream closes a record with it, and the predictor that starts again. -/
def Obligations.CrankCommands : Prop := ∀ s : State, s.hub.sysq = [] → s.hub.pwr.state ≠ 4 →
  let c := s.hub.ang.crank
  let synced := c.state = .sync360 ∨ c.state = .sync720
  exec (.crkEnable true) s = .next (s.withHub (s.hub.setFld 0x30040 0 1 1)) ∧
  (c.state = .search → exec (.crkEnable false) s = .next (s.withHub ((s.hub.setFld 0x30040 0 1 0).setCrank
    { c with last := none, per := none, perPrev := none, pred := none, reverse := false, held := none, rise := none }))) ∧
  (c.state ≠ .search → s.hub.gridSids 1 = [] →
    ∃ h : Hub, exec (.crkEnable false) s = .next (State.sysStore (s.withHub h)
        (hubEvent 0x0D 0 (BitVec.ofNat 40 (c.state.code * 16)) s.hub.instant 0xFFFF)) ∧
      h.ang.crank.state = .search ∧ h.ang.crank.prev = c.state ∧ h.ang.crank.last = none ∧ h.bit 0x30040 0 = false) ∧
  (synced → s.hub.gridSids 1 = [] →
    ∃ h : Hub, exec .crkResync s = .next (State.sysStore (s.withHub h)
        (hubEvent 0x0D 0 (BitVec.ofNat 40 (4 + c.state.code * 16)) s.hub.instant 0xFFFF)) ∧
      h.ang.crank.state = .lost ∧ h.ang.crank.prev = c.state ∧ h.ang.crank.loss = 5 ∧ h.synced 1 = false) ∧
  (¬ synced → exec .crkResync s = .next s) ∧
  (synced → s.hub.gridSids 1 = [] →
    ∃ h : Hub, exec .crankStall s = .next (State.sysStore (s.withHub h)
        (hubEvent 0x0D 0 (BitVec.ofNat 40 (4 + c.state.code * 16)) s.hub.instant 0xFFFF)) ∧
      h.ang.crank.state = .lost ∧ h.ang.crank.loss = 1 ∧ h.ang.crank.last = none ∧ h.ang.crank.pred = none) ∧
  (c.state = .gapFound →
    ∃ h : Hub, exec .crankStall s = .next (State.sysStore (s.withHub h) (hubEvent 0x0D 0 16 s.hub.instant 0xFFFF)) ∧
      h.ang.crank.state = .search ∧ h.ang.crank.prev = .gapFound ∧ h.ang.crank.last = none ∧ h.ang.crank.pred = none) ∧
  (c.state = .search ∨ c.state = .lost → exec .crankStall s = .next (s.withHub (s.hub.setCrank
    { c with last := none, per := none, perPrev := none, pred := none, extra := false, lastAt := s.hub.now })))

/-- DIST commands (R99 to R101): the stall keeps the position, EN starts and ends the domain, and ZERO waits for the next tick, and has no
effect on a domain that is off (log 127) or in HOLLOW and BASIN. Filtered edges on TRG and ANG_IN pins (R65, R83, R89, R100, R187): an edge that does not change the
level does nothing, an inactive one changes the level alone, an active one sets the pin's event bit; a pin stream takes it with the
instant of R83, the level and its count; a DIST domain fed by the pin counts its step. -/
def Obligations.DistAndPinCommands : Prop :=
  (∀ (s : State) (d : Nat), s.hub.sysq = [] → s.hub.pwr.state ≠ 4 → d < 4 →
  let x := s.hub.dist d
  exec (.distStall d) s = .next (s.withHub (s.hub.setDist d
    { x with last := none, per := none, perPrev := none, pred := none, lastAt := s.hub.now, run := { x.run with span := none } })) ∧
  exec (.dstEnable d true) s = .next (s.withHub (s.hub.setFld (dstReg d 0) 0 1 1)) ∧
  (x.track = false → exec (.dstEnable d false) s = .next (s.withHub
    (if x.zeroDue then (s.hub.setFld (dstReg d 0) 0 1 0).setDist d { x with zeroDue := false } else s.hub.setFld (dstReg d 0) 0 1 0))) ∧
  (x.track = true → s.hub.gridSids (d + 2) = [] →
    ∃ h : Hub, exec (.dstEnable d false) s = .next (State.sysStore (s.withHub h)
        (hubEvent 0x0D (d + 1) (BitVec.ofNat 40 (5 * 16)) s.hub.instant 0xFFFF)) ∧
      (h.dist d).track = false ∧ (h.dist d).zeroDue = false ∧ (h.dist d).ctr = x.ctr ∧ (h.dist d).laps = x.laps ∧ h.synced (d + 2) = false ∧
      ∀ k, k ≠ d → h.dist k = s.hub.dist k) ∧
  (s.hub.bit (dstReg d 0) 0 = true → s.hub.pwr.state < 3 → exec (.dstZero d) s = .next (s.withHub (s.hub.setDist d { x with zeroDue := true }))) ∧
  (s.hub.bit (dstReg d 0) 0 = false ∨ 3 ≤ s.hub.pwr.state → exec (.dstZero d) s = .next s)) ∧
  (∀ (s : State) (pin : Nat) (level : Bool) (code : BitVec 4), s.hub.sysq = [] → s.hub.pwr.state < 3 →
  pin < 8 →
  let a := s.hub.ang
  let mark : BitVec 8 := BitVec.ofNat 8 (2 ^ pin)
  let trg : Hub := s.hub.setAng { a with trgLevel := if level then a.trgLevel ||| mark else a.trgLevel &&& ~~~ mark }
  let ang : Hub := s.hub.setAng { a with angLevel := if level then a.angLevel ||| mark else a.angLevel &&& ~~~ mark }
  let trgEdge := activeEdge (s.hub.fld (0x9F100 + 4 * pin) 8 2) level
  let angEdge := activeEdge (s.hub.fld (0x30000 + 4 * pin) 8 2) level
  let noEntry := ∀ i, i < 128 → s.hub.txOn i = true → s.hub.trig i = 2 → s.hub.fld (txReg i 8) 4 3 ≠ pin
  let noBeacon := fun input => ∀ d ∈ s.hub.distsOn, s.hub.bit (dstReg d 4) 8 = true → s.hub.fld (dstReg d 4) 4 4 ≠ input
  let bound := fun kind => s.hub.liveSids.filter (fun k => s.hub.kind k == kind && s.hub.srcIndex k == pin)
  let crankFree := s.hub.bit 0x30040 0 = false ∧ s.hub.probes = []
  let deaf := level && s.hub.supply.getLsbD 0
  (a.trgLevel.getLsbD pin = level ∨ deaf = true → exec (.trgPinEdge pin level code) s = .next s) ∧
  (a.trgLevel.getLsbD pin ≠ level → deaf = false → trgEdge = false → exec (.trgPinEdge pin level code) s = .next (s.withHub trg)) ∧
  (a.trgLevel.getLsbD pin ≠ level → deaf = false → trgEdge = true → noEntry → noBeacon pin → bound 4 = [] →
    exec (.trgPinEdge pin level code) s = .next (s.withHub (trg.setFld 0x9F120 (8 + pin) 1 1))) ∧
  (∀ sid, a.trgLevel.getLsbD pin ≠ level → deaf = false → trgEdge = true → noEntry → noBeacon pin → bound 4 = [sid] → s.hub.forms sid = true →
    let n := (s.hub.strm sid).edges + 1
    let on : Hub := (trg.setFld 0x9F120 (8 + pin) 1 1).setStrm sid { s.hub.strm sid with edges := n }
    exec (.trgPinEdge pin level code) s = .next (s.withHub { on with handoff := s.hub.handoff ++ [(sid,
      { instant := s.hub.pinInstant pin code (s.hub.fld (0x9F100 + 4 * pin) 0 8), value := BitVec.ofNat 64 (level.toNat + n.toNat * 256),
        sat := false, kind := .pin, status := 0, period := none, pos := none, pass := false, gap := false, fresh := false })] })) ∧
  (a.angLevel.getLsbD pin = level ∨ deaf = true → exec (.angPinEdge pin level code) s = .next s) ∧
  (a.angLevel.getLsbD pin ≠ level → deaf = false → angEdge = false → crankFree → exec (.angPinEdge pin level code) s = .next (s.withHub ang)) ∧
  (a.angLevel.getLsbD pin ≠ level → deaf = false → angEdge = true → crankFree → (∀ d ∈ s.hub.distsOn, s.hub.fld (dstReg d 4) 0 3 ≠ pin) →
    noBeacon (8 + pin) → bound 5 = [] →
    exec (.angPinEdge pin level code) s = .next (s.withHub (ang.setFld 0x30020 (8 + pin) 1 1))) ∧
  (∀ d, a.angLevel.getLsbD pin ≠ level → deaf = false → angEdge = true → crankFree →
    s.hub.distsOn.filter (fun k => s.hub.fld (dstReg k 4) 0 3 == pin) = [d] → noBeacon (8 + pin) → bound 5 = [] →
    ∃ t, exec (.angPinEdge pin level code) s = .next t ∧
      (t.hub.dist d).ctr = ((s.hub.dist d).ctr + s.hub.fld (dstReg d 8) 0 32) % (65535 * 65536) ∧
      (t.hub.dist d).last = some (s.hub.pinInstant (8 + pin) code (s.hub.fld (0x30000 + 4 * pin) 0 8)) ∧
      (t.hub.dist d).track = (s.hub.dist d).track ∧ (t.hub.dist d).laps = (s.hub.dist d).laps ∧
      (∀ k, k ≠ d → t.hub.dist k = s.hub.dist k) ∧ t.hub.bit 0x30020 (8 + pin) = true ∧ t.mem = s.mem))

/-- The crank decoder's changes of state at a tooth edge (R92 to R94): the first mark after three regular periods, the second with the
right count, a cam reading that fixes the half, and a mark or a missing mark at the wrong count. -/
def Obligations.CrankDecoding : Prop := ∀ (h : Hub) (t : Instant) (per : Nat),
  let c := h.ang.crank
  (c.state = .search → 3 ≤ c.regular →
    (h.toothEdge t true per).ang.crank.state = .gapFound ∧ (h.toothEdge t true per).ang.crank.count = 0) ∧
  (c.state = .search → c.regular < 3 → (h.toothEdge t true per).ang.crank.state = .search) ∧
  (c.state = .search → (h.toothEdge t false per).ang.crank.state = .search ∧
    (h.toothEdge t false per).ang.crank.regular = c.regular + 1) ∧
  (c.state = .gapFound → c.count = h.perMark → h.gridSids 1 = [] →
    (h.toothEdge t true per).ang.crank.state = .sync360 ∧
    (h.bit 0x30048 16 = false → (h.toothEdge t true per).synced 1 = true)) ∧
  (c.state = .gapFound → c.count ≠ h.perMark → (h.toothEdge t true per).ang.crank.state = .search) ∧
  (∀ half, c.state = .sync360 → c.count = h.perMark → c.camHalf = some half → h.gridSids 1 = [] →
    (h.toothEdge t true per).ang.crank.state = .sync720) ∧
  ((c.state = .sync360 ∨ c.state = .sync720) → c.count ≠ h.perMark → h.gridSids 1 = [] →
    (h.toothEdge t true per).ang.crank.state = .lost ∧ (h.toothEdge t true per).ang.crank.loss = 2) ∧
  ((c.state = .sync360 ∨ c.state = .sync720) → c.count = h.perMark → h.gridSids 1 = [] →
    (h.toothEdge t false per).ang.crank.state = .lost ∧ (h.toothEdge t false per).ang.crank.loss = 2)

/-- Writing and firing entries of the Angle Schedule Table (R95, R102 to R107): ASE_POS disarms; ASE_ACTION is checked and arms at the next tick,
and is locked while armed, but not once a DISARM_ALL waits; a firing entry counts, disarms itself under ONCE, and carries out its action, which beyond
the eighth of a tick waits for the next; one whose domain is not synchronised does not fire. The table's enable and disarm,
and the trigger outputs (R105, R106, R109, R440). -/
def Obligations.AngleScheduleCommands : Prop :=
  (∀ (s : State) (i : Nat) (v : Word), s.hub.sysq = [] → i < 1024 →
  let x := s.hub.ase i
  let kept : Word := 0x4F3FFF77
  let locked := x.armed = true ∧ s.hub.ang.disarmAll = false
  exec (.asePosWrite i v) s = .next (s.withHub ((s.hub.setReg (aseReg i 0) v).setAse i
    { x with armed := false, arming := false, susp := false, defer := false })) ∧
  (locked → v &&& kept = s.hub.reg (aseReg i 4) → exec (.aseActionWrite i v) s = .next s) ∧
  (locked → v &&& kept ≠ s.hub.reg (aseReg i 4) → exec (.aseActionWrite i v) s = .next (s.withHub (s.hub.flag angErr 1 0))) ∧
  (¬ locked → s.hub.actionOk i v = false → exec (.aseActionWrite i v) s = .next (s.withHub (s.hub.flag angErr 0 0))) ∧
  (¬ locked → s.hub.actionOk i v = true → exec (.aseActionWrite i v) s = .next (s.withHub
    ((s.hub.setReg (aseReg i 4) (v &&& kept)).setAse i { x with arming := decide (bits v 4 3 ≠ 0) }))) ∧
  (let act := s.hub.fld (aseReg i 4) 4 3
   let target := s.hub.fld (aseReg i 4) 8 8
   let edge : WinEdge := { tick := s.hub.tb.acc, pos := (s.hub.reg (aseReg i 0)).toNat, dom := s.hub.fld (aseReg i 4) 0 3 }
   let fired : Hub := (s.hub.setAng { s.hub.ang with firing := s.hub.ang.firing.erase i }).setAse i
     { x with fired := true, fires := BitVec.ofNat 16 (min 65535 (x.fires.toNat + 1)), armed := x.armed && !s.hub.bit (aseReg i 4) 30 }
   let able := x.susp = false ∧ s.hub.synced edge.dom = true ∧ s.hub.bit 0x30100 0 = true ∧ s.hub.pwr.state < 3
   let runs := s.hub.ang.firing.contains i = true ∧ able ∧ s.hub.ang.passed < 8
   let passed : Hub := fired.setAng { fired.ang with passed := s.hub.ang.passed + 1 }
   (¬ able →
     exec (.aseFire i) s = .next (s.withHub (s.hub.setAng { s.hub.ang with firing := s.hub.ang.firing.erase i }))) ∧
   (runs → act = 1 → s.hub.acquired.contains target = false →
     exec (.aseFire i) s = .next (s.withHub { passed.triggered target 1 with acquired := target :: s.hub.acquired }).settle) ∧
   (runs → act = 2 → exec (.aseFire i) s = .next (s.withHub { passed with winEdges := s.hub.winEdges ++ [(target, true, edge)] })) ∧
   (runs → act = 3 → exec (.aseFire i) s = .next (s.withHub { passed with winEdges := s.hub.winEdges ++ [(target, false, edge)] })) ∧
   (s.hub.ang.firing.contains i = true → able → act = 4 → exec (.aseFire i) s = .next (s.withHub (fired.setAng { fired.ang with
     pulses := s.hub.ang.pulses ++ [(target, s.hub.fld (aseReg i 8) 0 16, s.hub.now + 512)] }))) ∧
   (runs → act = 5 → s.hub.bit (aseReg i 4) 21 = false → s.hub.fld (aseReg i 4) 0 3 = 0 →
     exec (.aseFire i) s = .next (State.sysStore (s.withHub passed)
       (hubEvent 0x0E i ((s.hub.reg (aseReg i 8)).setWidth 40) s.hub.instant 0xFFFF))) ∧
   (s.hub.ang.firing.contains i = true → able → act ≠ 4 → 8 ≤ s.hub.ang.passed →
     ∃ a, exec (.aseFire i) s = .next (s.withHub (fired.setAng { fired.ang with acts := s.hub.ang.acts ++ [a] })) ∧ a.entry = i ∧
       a.action = s.hub.reg (aseReg i 4) ∧ a.param = s.hub.reg (aseReg i 8) ∧ a.tick = s.hub.tb.acc))) ∧
  (∀ (s : State) (pin : Nat), s.hub.sysq = [] →
  let a := s.hub.ang
  (s.hub.bit 0x30100 0 = true → exec .astEnable s = .next s) ∧
  (s.hub.bit 0x30100 0 = false → s.hub.armedAses = [] → exec .astEnable s = .next (s.withHub (s.hub.setFld 0x30100 0 1 1))) ∧
  (∀ i, s.hub.bit 0x30100 0 = false → s.hub.armedAses = [i] →
    exec .astEnable s = .next (s.withHub ((s.hub.setFld 0x30100 0 1 1).setAse i
      ((s.hub.setFld 0x30100 0 1 1).judge i (s.hub.ase i))))) ∧
  ((∀ e ∈ a.ase, e.2.arming = false) → exec .disarmAll s = .next { s with hub.ang.disarmAll := true }) ∧
  (∀ i x, a.ase = [(i, x)] → x.arming = true → exec .disarmAll s = .next (s.withHub
    ((s.hub.setAng { a with disarmAll := true }).setAse i { x with arming := false, armed := false }))) ∧
  (∀ p, pin < 8 → a.pulses.find? (fun p => p.1 == pin) = some p → s.hub.bit (0x30140 + 4 * pin) 0 = true →
    exec (.toutPulseStart pin) s = .next (s.withHub (s.hub.setAng { a with
      pulses := a.pulses.erase p, tout := tput a.tout pin (max (tval 0 a.tout pin) (s.hub.now + p.2.1 * 256)) }))) ∧
  (∀ p, pin < 8 → a.pulses.find? (fun p => p.1 == pin) = some p → s.hub.bit (0x30140 + 4 * pin) 0 = false →
    exec (.toutPulseStart pin) s = .next (s.withHub (s.hub.setAng { a with pulses := a.pulses.erase p }))) ∧
  (a.pulses.find? (fun p => p.1 == pin) = none → exec (.toutPulseStart pin) s = .next s) ∧
  exec (.toutPulseEnd pin) s = .next (s.withHub (s.hub.setAng { a with tout := tdel a.tout pin })))

/-! ### Decimation banks and resamplers (R112 to R148) -/

/-- Clock groups (R114 to R116, R119): EN of one group is taken only where every channel of the group keeps the rate range, and starts the
group where Bank H is on; a group that feeds a claimed slice is not stopped. -/
def Obligations.GroupCommands : Prop := ∀ (s : State) (g : Nat), s.hub.sysq = [] → g < 4 →
  let mask : BitVec 4 := BitVec.ofNat 4 (2 ^ g)
  let slow := (List.range 48).find? (fun n => s.hub.groupOf n == g && !rateOk (s.hub.hCfgOf n) (s.hub.div g))
  (s.hub.bit 0x4F010 g = true → exec (.hbGroupEnable mask) s = .next s) ∧
  (∀ n, s.hub.bit 0x4F010 g = false → slow = some n → exec (.hbGroupEnable mask) s = .next (s.withHub (s.hub.flag hbErr 3 n))) ∧
  (s.hub.bit 0x4F010 g = false → slow = none → s.hub.bankHOn = false →
    exec (.hbGroupEnable mask) s = .next (s.withHub (s.hub.setFld 0x4F010 g 1 1))) ∧
  (s.hub.bit 0x4F010 g = false → slow = none → s.hub.bankHOn = true →
    ∃ t, exec (.hbGroupEnable mask) s = .next t ∧ t.hub.grp g = { Group.init with on := true, wait := 2 } ∧
      (∀ k, k ≠ g → t.hub.grp k = s.hub.grp k) ∧ t.hub.regs = (s.hub.setFld 0x4F010 g 1 1).regs ∧ t.mem = s.mem) ∧
  (s.hub.bit 0x4F010 g = false → exec (.hbGroupStop mask) s = .next s) ∧
  (s.hub.bit 0x4F010 g = true → s.hub.groupUsed g = true → exec (.hbGroupStop mask) s = .next (s.withHub (s.hub.flag hbErr 4 g))) ∧
  (s.hub.bit 0x4F010 g = true → s.hub.groupUsed g = false →
    exec (.hbGroupStop mask) s = .next (s.withHub ((s.hub.setFld 0x4F010 g 1 0).setGrp g { s.hub.grp g with ending := true })))

/-- A channel's bit (R81, R112 to R114, R127): kept in the delay line while no stream forms records from it; filtered else, and the bit that
completes an output sends it with its instant and exact period. With VDDIO_B out of range a bit reads 0 (R421). A hold or a shadow that warms up is another statement's. -/
def Obligations.BankHOutputs : Prop := ∀ (s : State) (n : Nat) (b : Bool), s.hub.sysq = [] → n < 48 → (b = true → s.hub.supply.getLsbD 0 = false) →
  let x := s.hub.hsl n
  let g := s.hub.grp (s.hub.groupOf n)
  let c := s.hub.hCfgOf n
  let next := pushBit c { x with edge := x.edge + 1, lineN := x.lineN + 1 } b
  let alone := (s.hub.shd 0).phase = 0
  (g.on = false → exec (.bankHOutput n [b]) s = .next s) ∧
  exec (.bankHOutput n []) s = .next s ∧
  (s.hub.supply.getLsbD 0 = true → exec (.bankHOutput n [true]) s = exec (.bankHOutput n [false]) s) ∧
  (g.on = true → s.hub.sliceOwner 1 n = none → exec (.bankHOutput n [b]) s = .next (s.withHub (s.hub.setHsl n
    { x with edge := x.edge + 1, lineN := x.lineN + 1, line := (b :: x.line).take 1024 }))) ∧
  (∀ sid, g.on = true → s.hub.sliceOwner 1 n = some sid → s.hub.forms sid = true → alone → next.2 = none →
    exec (.bankHOutput n [b]) s = .next (s.withHub (s.hub.setHsl n next.1))) ∧
  (∀ sid v, g.on = true → s.hub.sliceOwner 1 n = some sid → s.hub.forms sid = true → alone → next.2 = some v → v.sat = false →
    next.1.pending = false → s.hub.rsmpEn sid = false → (∀ d ∈ s.hub.liveSids, s.hub.kind d ≠ 6) →
    exec (.bankHOutput n [b]) s = .next (s.withHub
      { s.hub.setHsl n { next.1 with priming := false, cut := false, settle := next.1.settle - 1 } with
        handoff := s.hub.handoff ++ [(sid, {
          instant := outputInstant g.runs c x.edge, value := BitVec.ofInt 64 v.v, sat := false,
          kind := .slice, status := 0, period := some (s.hub.div (s.hub.groupOf n) * c.total * s.hub.tinc.toNat * 256), pos := none,
          pass := false, gap := false, fresh := next.1.cut })] }))

/-- A word of a Bank M slice (R86, R87, R120, R121, R124): dropped while no stream takes it, while a SYNC is awaited and where it is no later than the
last SYNC; filtered else, and the word that completes an output sends it with its instant and exact period. -/
def Obligations.BankMOutputs : Prop := ∀ (s : State) (n : Nat), s.hub.sysq = [] → n < 64 →
  let x := s.hub.msl n
  let c := mCfg (s.hub.reg (mchReg n 0))
  (x.fifo = [] → exec (.bankMOutput n) s = .next s) ∧
  (∀ t v per rest, x.fifo = (t, v, per) :: rest → s.hub.sliceOwner 2 n = none →
    exec (.bankMOutput n) s = .next (s.withHub (s.hub.setMsl n { x with fifo := rest, per := per }))) ∧
  (∀ t v per rest, x.fifo = (t, v, per) :: rest → (x.syncWait = true ∨ ∃ a, x.after = some a ∧ before a t = false) →
    exec (.bankMOutput n) s = .next (s.withHub (s.hub.setMsl n { x with fifo := rest, per := per }))) ∧
  (∀ t v per rest sid, x.fifo = (t, v, per) :: rest → s.hub.sliceOwner 2 n = some sid → s.hub.forms sid = true → x.syncWait = false →
    (∀ a, x.after = some a → before a t = true) → (s.hub.shd 1).phase = 0 →
    let next := pushWord c { x with fifo := rest, per := per, after := none } { t := t, v := v }
    (next.2 = none → exec (.bankMOutput n) s = .next (s.withHub (s.hub.setMsl n next.1))) ∧
    (∀ w, next.2 = some w → w.sat = false → next.1.pending = false → x.holes = [] → s.hub.rsmpEn sid = false →
      (∀ d ∈ s.hub.liveSids, s.hub.kind d ≠ 6) →
      exec (.bankMOutput n) s = .next (s.withHub
        { s.hub.setMsl n { next.1 with priming := false, cut := false, settle := next.1.settle - 1, holes := [] } with
          handoff := s.hub.handoff ++ [(sid, {
            instant := mInstant c next.1.ins, value := BitVec.ofInt 64 w.v, sat := false, kind := .slice,
            status := 0, period := per.map (fun p => p * c.total), pos := none, pass := false, gap := false, fresh := next.1.cut })] })))

/-- COMMIT of the banks and resamplers (R125 to R127, R147, R148): a failing check discards what was written, sets COMMIT_REJ and changes
nothing in force; else what was written is captured and takes effect at once where no output is being formed, at the unit's boundary
else. SYNC of Bank M (R123, R124): the command at the next PORT tick, the pin at the third with PIN_EN. It is counted; an ARMED stream's
slice primes from the words after it, a RUNNING or WAITING one only counts it; a second SYNC on one tick is the same SYNC. -/
def Obligations.BankCommitsAndSync : Prop :=
  (∀ (s : State) (n : Nat), s.hub.sysq = [] →
  (n < 48 → hCfgOk (s.hub.hCfgNext n) (s.hub.div (s.hub.groupOf n)) = false → exec (.hchCommit n) s = .next (s.withHub
    (((s.hub.discard (hchReg n 0) 0x400).setHsl n { s.hub.hsl n with pending := false }).flag hbErr 2 n))) ∧
  (n < 48 → hCfgOk (s.hub.hCfgNext n) (s.hub.div (s.hub.groupOf n)) = true → s.hub.atOnce 1 n (s.hub.hsl n).priming = false →
    exec (.hchCommit n) s = .next (s.withHub ((s.hub.capture (hchReg n 0) 0x400).setHsl n { s.hub.hsl n with pending := true }))) ∧
  (n < 48 → hCfgOk (s.hub.hCfgNext n) (s.hub.div (s.hub.groupOf n)) = true → s.hub.sliceOwner 1 n = none → (s.hub.shd 0).phase = 0 →
    let after := (s.hub.capture (hchReg n 0) 0x400).apply (hchReg n 0) 0x400
    ∃ t, exec (.hchCommit n) s = .next t ∧ t.hub.regs = after.regs ∧ t.hub.held = after.held ∧ t.hub.capt = after.capt ∧
      (t.hub.hsl n).pending = false ∧ (∀ k, k ≠ n → t.hub.hsl k = s.hub.hsl k) ∧
      ((after.hCfgOf n).total ≠ (s.hub.hCfgOf n).total → (t.hub.hsl n).count = 0) ∧ t.mem = s.mem) ∧
  (n < 64 → mCfgOk (mCfg (s.hub.seen (mchReg n 0))) = false → exec (.mchCommit n) s = .next (s.withHub
    (((s.hub.discard (mchReg n 0) 0x200).setMsl n { s.hub.msl n with pending := false }).flag mbErr 2 n))) ∧
  (n < 64 → mCfgOk (mCfg (s.hub.seen (mchReg n 0))) = true → s.hub.atOnce 2 n (s.hub.msl n).priming = false →
    exec (.mchCommit n) s = .next (s.withHub ((s.hub.capture (mchReg n 0) 0x200).setMsl n { s.hub.msl n with pending := true }))) ∧
  (n < 64 → mCfgOk (mCfg (s.hub.seen (mchReg n 0))) = true → s.hub.sliceOwner 2 n = none → (s.hub.shd 1).phase = 0 →
    let after := (s.hub.capture (mchReg n 0) 0x200).apply (mchReg n 0) 0x200
    ∃ t, exec (.mchCommit n) s = .next t ∧ t.hub.regs = after.regs ∧ (t.hub.msl n).pending = false ∧
      (∀ k, k ≠ n → t.hub.msl k = s.hub.msl k) ∧ t.mem = s.mem) ∧
  (n < 32 → s.hub.rsmpOwner n = none → gridOk 1 (s.hub.seen (rsmReg n 0)) (s.hub.seen (rsmReg n 4)) = false →
    exec (.rsCommit n) s = .next (s.withHub
      (((s.hub.discard (rsmReg n 0) 0x100).setRsl n { s.hub.rsl n with pending := false }).flag rsErr 2 n))) ∧
  (n < 32 → s.hub.rsmpOwner n = none → gridOk 1 (s.hub.seen (rsmReg n 0)) (s.hub.seen (rsmReg n 4)) = true →
    exec (.rsCommit n) s = .next (s.withHub
      (((s.hub.capture (rsmReg n 0) 0x100).apply (rsmReg n 0) 0x100).setRsl n { s.hub.rsl n with pending := false }))) ∧
  (∀ sid, n < 32 → s.hub.rsmpOwner n = some sid → (s.hub.strm sid).state = .running →
    (s.hub.synced (s.hub.domain sid) = true ∨ s.hub.fld (rsmReg n 4) 8 8 ≠ 0) →
    gridOk (s.hub.domain sid) (s.hub.seen (rsmReg n 0)) (s.hub.seen (rsmReg n 4)) = true →
    exec (.rsCommit n) s = .next (s.withHub ((s.hub.capture (rsmReg n 0) 0x100).setRsl n { s.hub.rsl n with pending := true })))) ∧
  (∀ (s : State) (c : Instr) (tick : Instant), s.hub.sysq = [] →
  (c = .mbSync ∧ tick = s.hub.portAhead 1) ∨ (c = .syncNFall ∧ s.hub.bit 0x5F000 1 = true ∧ tick = s.hub.portAhead 3) →
  let counted : Hub := ({ s.hub with lastSync := some tick } : Hub).setFld 0x5F004 0 16 (min 65535 (s.hub.fld 0x5F004 0 16 + 1))
  let users := s.hub.liveSids.filter (fun k => s.hub.bank k == 2)
  (s.hub.lastSync = some tick → exec c s = .next s) ∧
  (s.hub.lastSync ≠ some tick → users = [] → exec c s = .next (s.withHub counted)) ∧
  (∀ sid, s.hub.lastSync ≠ some tick → users = [sid] → (s.hub.strm sid).state = .armed → (s.hub.shd 1).phase = 0 →
    exec c s = .next (s.withHub (counted.setMsl (s.hub.slice sid) { s.hub.msl (s.hub.slice sid) with
      count := 0, priming := true, settle := 0, holes := [], syncWait := false, after := some tick }))) ∧
  (∀ sid, s.hub.lastSync ≠ some tick → users = [sid] → (s.hub.strm sid).state = .running ∨ (s.hub.strm sid).state = .waiting →
    exec c s = .next (s.withHub (counted.setFld (mchReg (s.hub.slice sid) 0x0C) 16 16
      (min 65535 (s.hub.fld (mchReg (s.hub.slice sid) 0x0C) 16 16 + 1))))) ∧
  (s.hub.bit 0x5F000 1 = false → exec .syncNFall s = .next s))

/-- A lattice point of a resampler (R137 to R141) and a write to the coefficient window (R130): with no claim, or before the point can be
formed, nothing happens; a formed point carries its position and instant and the lattice moves on round the CRANK cycle; a write is
discarded with WRITE_ROM. -/
def Obligations.GridPoints : Prop := ∀ (s : State) (n : Nat), s.hub.sysq = [] → n < 32 →
  let x := s.hub.rsl n
  let sp := s.hub.fld (rsmReg n 0) 0 10
  (s.hub.rsmpOwner n = none → exec (.gridPoint n) s = .next s) ∧
  (∀ sid, s.hub.rsmpOwner n = some sid → (x.next = none ∨ s.hub.nextPoint sid n = .wait) → exec (.gridPoint n) s = .next s) ∧
  (∀ sid p tp tv v deep, s.hub.rsmpOwner n = some sid → x.next = some p → s.hub.nextPoint sid n = .made tp tv v deep →
    s.hub.forms sid = true → s.hub.domain sid = 1 → (s.hub.shd 2).phase = 0 → x.pending = false → x.laps = [] →
    exec (.gridPoint n) s = .next (s.withHub { s.hub.setRsl n { x with
        last := BitVec.ofNat 16 p, cut := false, next := some (if p + sp < 46080 then p + sp else p + sp - 46080), lastT := some tp } with
      handoff := s.hub.handoff ++ [(sid, {
        instant := tv, value := BitVec.ofInt 64 v.v, sat := v.sat, kind := .slice, status := 0,
        period := none, pos := some (BitVec.ofNat 16 p), pass := false, gap := false, fresh := x.cut, grid := sp,
        lat := some (s.hub.pointLat sid) })] })) ∧
  (∀ sid p tp stale, s.hub.rsmpOwner n = some sid → x.next = some p → s.hub.nextPoint sid n = .lost tp stale →
    s.hub.domain sid = 1 → (s.hub.shd 2).phase = 0 → x.laps = [] → (s.hub.strm sid).slots = [] → (s.hub.strm sid).fresh = true →
    exec (.gridPoint n) s = .next (s.withHub (s.hub.setRsl n { x with
      next := some (if p + sp < 46080 then p + sp else p + sp - 46080), lastT := some tp }))) ∧
  (∀ by_ addr v, exec (.romWrite by_ addr v) s = .next (s.withHub (s.hub.flag rsErr 3 0x3F)))

/-- The arithmetic of every filter stage (R113): an exact value over a positive divisor becomes the nearest integer, ties upward, held within
plus and minus 2^31 - 1, and is marked SAT where it was held or where an input was. -/
def Obligations.FilterRounding : Prop := ∀ (num : Int) (den : Nat) (sat : Bool), 0 < den →
  let v := settleVal num den sat
  let near := (2 * num + den).fdiv (2 * den)
  (2 * (near * den - num) ≤ den ∧ -(den : Int) < 2 * (near * den - num)) ∧
  (-(2 ^ 31 - 1) ≤ near → near ≤ 2 ^ 31 - 1 → v = { v := near, sat := sat }) ∧
  (2 ^ 31 - 1 < near → v = { v := 2 ^ 31 - 1, sat := true }) ∧
  (near < -(2 ^ 31 - 1) → v = { v := -(2 ^ 31 - 1), sat := true })

/-! ### Serial and two-wire ports (R149 to R180) -/

/-- A serial port's frames (R157, R158): the frame that ends keeps its words and completes OK, or under STAT with a zero field makes
another attempt after the wait, or ends with NOREADY, at once where the entry's next trigger is held or its target has gone; the wait's end starts the
next attempt, whose SEN_N falls the longer of WAIT and MINHIGH after the last rise; other phases take no notice. -/
def Obligations.SerialFrames : Prop := ∀ (s : State) (n : Nat) (words : List Word), s.hub.sysq = [] → n < 16 →
  let x := s.hub.spt n
  let ws := x.words
  let got := (List.range (if dataOut ws then 0 else fmtBits ws 2 0 7)).map
    (fun i => BitVec.ofNat 32 ((words.getD i 0).toNat % 2 ^ wordWidth ws))
  let rise := x.at_ + (x.sen + frameCycles ws) * 160
  let field := (((got.getD (fmtBits ws 3 1 6) 0).toNat) >>> fmtBits ws 3 8 5) % 2 ^ (fmtBits ws 3 16 4 + 1)
  let stays := fun t' : State => (∀ i, i < got.length → t'.hub.reg (spReg n (0xC00 + 4 * i)) = got.getD i 0) ∧
    (∀ k, k ≠ n → t'.hub.spt k = s.hub.spt k) ∧ t' = { s with hub.sps := t'.hub.sps, hub.regs := t'.hub.regs }
  let noMore := fun t : Txn => s.hub.heldTrigger t = true ∨ s.hub.detached t = true
  (x.phase ≠ .frame ∨ (s.hub.pq n).active = none → exec (.spFrameEnd n words) s = .next s) ∧
  (∀ t, x.phase = .frame → (s.hub.pq n).active = some t → (fmtBits ws 3 0 1 = 0 ∨ field ≠ 0) →
    ∃ t', exec (.spFrameEnd n words) s = .next t' ∧ stays t' ∧
      t'.hub.spt n = { x with
        rise := rise, data := got, phase := .done 0, status := if fmtBits ws 3 0 1 = 0 then x.status else BitVec.ofNat 16 field }) ∧
  (∀ t, x.phase = .frame → (s.hub.pq n).active = some t → fmtBits ws 3 0 1 = 1 → field = 0 → x.tries < fmtBits ws 3 20 4 → ¬ noMore t →
    ∃ t', exec (.spFrameEnd n words) s = .next t' ∧ stays t' ∧
      t'.hub.spt n = { x with
        rise := rise, data := got, phase := .wait,
        sen := x.sen + frameCycles ws + max (s.hub.fld (spReg n 4) 8 5) (40 * fmtBits ws 3 24 8) }) ∧
  (∀ t, x.phase = .frame → (s.hub.pq n).active = some t → fmtBits ws 3 0 1 = 1 → field = 0 → (fmtBits ws 3 20 4 ≤ x.tries ∨ noMore t) →
    ∃ t', exec (.spFrameEnd n words) s = .next t' ∧ stays t' ∧ t'.hub.spt n = { x with rise := rise, data := got, phase := .done 1 } ∧
      t'.hub.fld (spReg n 0x00C) 0 16 = min 65535 (s.hub.fld (spReg n 0x00C) 0 16 + 1)) ∧
  (x.phase = .wait → exec (.spRetryWaitEnd n) s = .next (s.withHub (s.hub.setSpt n { x with phase := .frame, tries := x.tries + 1 }))) ∧
  (x.phase ≠ .wait → exec (.spRetryWaitEnd n) s = .next s)

/-- ABORT, a missing DQS edge, EN and COMMIT of a serial port (R152, R154 to R156, R158, R161). A transaction that is cut ends with CUT and is counted: its
frame, if begun, lets SCLK return at its next edge, leaves its data pins, and has SEN_N rise TRAIL after the last edge; one not yet begun never begins. -/
def Obligations.SerialPortCommands : Prop := ∀ (s : State) (n : Nat), s.hub.sysq = [] → n < 16 →
  let x := s.hub.spt n
  let fall := x.at_ + x.sen * 160
  let cycle := s.hub.beatAt + s.hub.portCycle * 160
  let k := edgesBefore x.words (cycle - fall)
  let edge := fun j => fall + (fmtLead x.words + j * fmtHalf x.words) * 160
  let last := if k % 2 = 1 then edge k else edge (k - 1)
  let leave := { x with
    rise := if k = 0 then cycle + fmtTrail x.words * 160 else max cycle (last + fmtTrail x.words * 160)
    back := if k % 2 = 1 then edge k else 0
    pins := { x.pins with sdo := false, dq := [], dqsLow := false } }
  let cut := fun (c : Instr) (y : SerialPort) => ∃ t', exec c s = .next t' ∧ t'.hub.spt n = { y with phase := .done 2 } ∧
    t'.hub.fld (spReg n 0x00C) 16 16 = min 65535 (s.hub.fld (spReg n 0x00C) 16 16 + 1) ∧
    (∀ k, k ≠ n → t'.hub.spt k = s.hub.spt k) ∧ t' = { s with hub.sps := t'.hub.sps, hub.regs := t'.hub.regs }
  let unbegun := { x with sel := if s.hub.now < x.change then x.selOld else x.sel, sclk := if s.hub.now < x.change then x.clkOld else x.sclk, change := 0 }
  let dqs := n < 2 ∧ x.phase = .frame ∧ fmtBits x.words 1 24 1 = 1 ∧ fmtBits x.words 2 0 7 ≠ 0 ∧ dataOut x.words = false
  let pend := fun k => (List.range 6).map (fun i => s.hub.seen (spReg n (0x100 + 0x20 * k + 4 * i)))
  let good := ∀ k, k < 8 → spFormatOk n (pend k) = true
  (x.phase = .frame → fall ≤ s.hub.now → cut (.spAbort n) leave) ∧
  (x.phase = .frame → s.hub.now < fall → cut (.spAbort n) unbegun) ∧
  (x.phase = .wait → cut (.spAbort n) x) ∧
  (x.phase ≠ .frame → x.phase ≠ .wait → exec (.spAbort n) s = .next s) ∧
  (dqs → fall ≤ s.hub.now → cut (.dqsTimeout n) leave) ∧
  (dqs → s.hub.now < fall → cut (.dqsTimeout n) unbegun) ∧
  (¬ dqs → exec (.dqsTimeout n) s = .next s) ∧
  exec (.spEnable n true) s = .next (s.withHub (s.hub.setFld (spReg n 0) 0 1 1)) ∧
  (x.pending = false → exec (.spEnable n false) s = .next (s.withHub (s.hub.setFld (spReg n 0) 0 1 0))) ∧
  (x.pending = true → exec (.spEnable n false) s = .next (s.withHub
    (((s.hub.setFld (spReg n 0) 0 1 0).apply (spReg n 0) 0x1000).setSpt n { x with pending := false }))) ∧
  (∀ k, k < 8 → (∀ j, j < k → spFormatOk n (pend j) = true) → spFormatOk n (pend k) = false →
    exec (.spCommit n) s = .next (s.withHub
      (((s.hub.discard (spReg n 0) 0x1000).setSpt n { x with pending := false }).flag (spErr n) 2 k))) ∧
  (good → x.phase ≠ .idle → s.hub.bit (spReg n 0) 0 = true →
    exec (.spCommit n) s = .next (s.withHub ((s.hub.capture (spReg n 0) 0x1000).setSpt n { x with pending := true }))) ∧
  (good → (x.phase = .idle ∨ s.hub.bit (spReg n 0) 0 = false) →
    ∃ t', exec (.spCommit n) s = .next t' ∧
      t'.hub.regs = ((s.hub.capture (spReg n 0) 0x1000).apply (spReg n 0) 0x1000).regs ∧ t'.hub.spt n = { x with pending := false } ∧
      (∀ k, k ≠ n → t'.hub.spt k = s.hub.spt k) ∧ t'.mem = s.mem)

/-- The frames of a two-wire controller (R163 to R166): a NACK, a PEC that does not match and a not-ready status field end an attempt with
their codes or lead to a wait; a read that is good keeps its bytes; a frame that ends with no target frame in progress lets a waiting COMMIT apply; and
with no frame in progress the command does nothing. -/
def Obligations.TwoWireFrames : Prop := ∀ (s : State) (n : Nat) (f : TwFrame), s.hub.sysq = [] → n < 8 →
  ((s.hub.twt n).phase ≠ .frame ∨ (s.hub.pq (16 + n)).active = none → exec (.twFrameEnd n f) s = .next s) ∧
  ((s.hub.twt n).phase = .frame → (s.hub.pq (16 + n)).active ≠ none → (s.hub.twt n).pending = true → (s.hub.twt n).tgt = none →
    ∃ t', exec (.twFrameEnd n f) s = .next t' ∧ (t'.hub.twt n).pending = false ∧ (t'.hub.twt n).phase ≠ .frame ∧
      t'.hub.capt = s.hub.capt.filter (fun e => !(twReg n 0 ≤ e.1 && e.1 < twReg n 0 + 0x1000))) ∧
  ((s.hub.twt n).phase = .frame → ((s.hub.twt n).pending = false ∨ (s.hub.twt n).tgt.isSome) → ∀ t, (s.hub.pq (16 + n)).active = some t →
  let x := { s.hub.twt n with freeAt := s.hub.now + s.hub.fld (twReg n 0x018) 16 16 * 160 }
  let ws := x.words
  let got := f.bytes.take (twf ws 0 8 6)
  let checked := twf ws 0 2 1 = 1 ∧ twf ws 0 8 6 ≠ 0
  let good := fun pec => checked → pec = some (crc8 (pecBytes ws t.addr got))
  let byte := (got.getD (twf ws 3 1 5) 0).toNat
  let field := (byte >>> twf ws 3 8 3) % 2 ^ (twf ws 3 12 3 + 1)
  let noMore := s.hub.heldTrigger t = true ∨ s.hub.detached t = true
  let gives := fun (y : TwoWirePort) (off lsb w : Nat) => ∃ t', exec (.twFrameEnd n f) s = .next t' ∧ t'.hub.twt n = y ∧
    t'.hub.fld (twReg n off) lsb w = min (2 ^ w - 1) (s.hub.fld (twReg n off) lsb w + 1) ∧
    (∀ k, k ≠ n → t'.hub.twt k = s.hub.twt k) ∧ t' = { s with hub.tws := t'.hub.tws, hub.regs := t'.hub.regs }
  let waits := fun y : TwoWirePort => ∃ t', exec (.twFrameEnd n f) s = .next t' ∧ t'.hub.twt n = y ∧
    (∀ k, k ≠ n → t'.hub.twt k = s.hub.twt k) ∧ t' = { s with hub.tws := t'.hub.tws }
  (f.result = .nack → ¬ noMore → x.nacks < twf ws 0 16 4 →
    waits { x with phase := .wait, last := 4, hold := twf ws 0 24 8 * 6400, nacks := x.nacks + 1 }) ∧
  (f.result = .nack → (noMore ∨ twf ws 0 16 4 ≤ x.nacks) → gives { x with phase := .done 4 } 0x024 0 8) ∧
  (∀ pec, f.result = .done pec → ¬ good pec → gives { x with phase := .done 8 } 0x024 24 8) ∧
  (∀ pec, f.result = .done pec → good pec → (twf ws 3 0 1 = 0 ∨ field ≠ 0) →
    ∃ t', exec (.twFrameEnd n f) s = .next t' ∧
      t'.hub.twt n = { x with
        phase := .done 0, start := f.start, rstart := f.rstart, data := got,
        status := if twf ws 3 0 1 = 0 then 0 else BitVec.ofNat 16 byte } ∧
      (∀ i, i < got.length → s.hub.detached t = false → t'.hub.fld (twReg n (0xC00 + 4 * (i / 4))) (8 * (i % 4)) 8 = (got.getD i 0).toNat) ∧
      (s.hub.detached t = true → t'.hub.regs = s.hub.regs) ∧
      (∀ k, k ≠ n → t'.hub.twt k = s.hub.twt k) ∧ t' = { s with hub.tws := t'.hub.tws, hub.regs := t'.hub.regs }) ∧
  (∀ pec, f.result = .done pec → good pec → twf ws 3 0 1 = 1 → field = 0 → ¬ noMore → x.waits < twf ws 3 16 4 →
    waits { x with phase := .wait, last := 1, hold := twf ws 0 24 8 * 6400, waits := x.waits + 1 }) ∧
  (∀ pec, f.result = .done pec → good pec → twf ws 3 0 1 = 1 → field = 0 → (noMore ∨ twf ws 3 16 4 ≤ x.waits) →
    gives { x with phase := .done 1 } 0x02C 0 16))

/-- Arbitration, timeouts, aborts and bus clears of a two-wire port (R163, R166 to R171), while no COMMIT waits. -/
def Obligations.TwoWireBus : Prop := ∀ (s : State) (n : Nat), s.hub.sysq = [] → n < 8 → (s.hub.twt n).pending = false →
  let x := s.hub.twt n
  let free := s.hub.now + s.hub.fld (twReg n 0x018) 16 16 * 160
  let stays := fun t' : State => (∀ k, k ≠ n → t'.hub.twt k = s.hub.twt k) ∧ t' = { s with hub.tws := t'.hub.tws, hub.regs := t'.hub.regs }
  let gives := fun (c : Instr) (y : TwoWirePort) => ∃ t', exec c s = .next t' ∧ stays t' ∧ t'.hub.twt n = y
  let fmt := (((s.hub.pq (16 + n)).active).map (fun t => t.fmt)).getD x.fmt
  let starts := fun (y : TwoWirePort) => { y with
    phase := .frame, base := s.hub.beatBase, at_ := s.hub.beatAt, busy := true, freeAt := 0, fmt := fmt,
    words := if y.words.isEmpty then s.hub.twFormat n fmt else y.words }
  let multi := s.hub.bit (twReg n 4) 0
  let lost := { x with busy := true, freeAt := 0 }
  let noMore := fun t : Txn => s.hub.heldTrigger t = true ∨ s.hub.detached t = true
  let again := fun t : Txn => ¬ noMore t ∧ x.arbs < twf x.words 0 20 4
  let retried := { lost with phase := .wait, last := 5, hold := twf x.words 0 24 8 * 6400, arbs := x.arbs + 1 }
  (∀ t, multi = true → x.phase = .frame → (s.hub.pq (16 + n)).active = some t → again t → gives (.arbitrationLost n .early) retried) ∧
  (∀ t, multi = true → x.phase = .frame → (s.hub.pq (16 + n)).active = some t → ¬ again t →
    gives (.arbitrationLost n .early) { lost with phase := .done 5 }) ∧
  (∀ t st rs bs pec, multi = true → x.phase = .frame → (s.hub.pq (16 + n)).active = some t →
    let got := bs.take (twf x.words 0 8 6)
    let passed := twf x.words 0 2 1 = 1 → twf x.words 0 8 6 ≠ 0 → pec = some (crc8 (pecBytes x.words t.addr got))
    let byte := (got.getD (twf x.words 3 1 5) 0).toNat
    let field := (byte >>> twf x.words 3 8 3) % 2 ^ (twf x.words 3 12 3 + 1)
    (passed → twf x.words 3 0 1 = 0 ∨ field ≠ 0 → gives (.arbitrationLost n (.lastNack st rs bs pec)) { lost with
      phase := .done 0, start := st, rstart := rs, data := got, status := if twf x.words 3 0 1 = 0 then 0 else BitVec.ofNat 16 byte }) ∧
    (passed → twf x.words 3 0 1 = 1 → field = 0 → ¬ noMore t → x.waits < twf x.words 3 16 4 → gives (.arbitrationLost n (.lastNack st rs bs pec))
      { lost with phase := .wait, last := 1, hold := twf x.words 0 24 8 * 6400, waits := x.waits + 1 }) ∧
    (passed → twf x.words 3 0 1 = 1 → field = 0 → (noMore t ∨ twf x.words 3 16 4 ≤ x.waits) →
      gives (.arbitrationLost n (.lastNack st rs bs pec)) { lost with phase := .done 1 }) ∧
    (¬ passed → again t → gives (.arbitrationLost n (.lastNack st rs bs pec)) retried) ∧
    (¬ passed → ¬ again t → gives (.arbitrationLost n (.lastNack st rs bs pec)) { lost with phase := .done 5 })) ∧
  (∀ p, multi = false ∨ x.phase ≠ .frame ∨ (s.hub.pq (16 + n)).active = none → exec (.arbitrationLost n p) s = .next s) ∧
  (x.phase = .frame → s.hub.bit (twReg n 4) 1 = true → gives (.twSclTimeout n) { x with freeAt := 0, phase := .done 6 }) ∧
  (x.phase ≠ .frame ∨ s.hub.bit (twReg n 4) 1 = false → exec (.twSclTimeout n) s = .next s) ∧
  (x.phase = .frame → exec (.busFree n) s = .next s) ∧
  (x.phase ≠ .frame → (x.phase ≠ .wait ∨ x.last ≠ 0) →
    exec (.busFree n) s = .next (s.withHub (s.hub.setTwt n { x with busy := false, freeAt := s.hub.now, stuck := false, tgt := none }))) ∧
  (x.phase = .wait → x.last = 0 → gives (.busFree n) (starts { x with stuck := false, tgt := none })) ∧
  (x.phase = .wait → x.busy = false → x.stuck = false →
    gives (.twRetryWaitEnd n) (starts { x with tries := if x.last = 0 then x.tries else x.tries + 1 })) ∧
  (x.phase ≠ .wait ∨ x.busy = true ∨ x.stuck = true → exec (.twRetryWaitEnd n) s = .next s) ∧
  (∀ high, x.inFrame = true → exec (.busclr n high) s = .next (s.withHub (s.hub.flag (twErr n) 0 0))) ∧
  (x.inFrame = false → exec (.busclr n true) s = .next (s.withHub (s.hub.setTwt n { x with stuck := false, busy := true, freeAt := free }))) ∧
  (x.inFrame = false → x.phase ≠ .wait → exec (.busclr n false) s = .next (s.withHub
    (((s.hub.setTwt n { x with stuck := true, freeAt := 0 }).flag (twErr n) 3 0).health 0x31 n 0x83 1))) ∧
  (x.inFrame = false → x.phase = .wait → ∃ t', exec (.busclr n false) s = .next t' ∧ t'.mem = s.mem ∧
    t'.hub.twt n = { x with stuck := true, freeAt := 0, phase := .done 7 } ∧ t'.hub.bit (twReg n 0x07C) 3 = true) ∧
  (∀ high, (x.phase ≠ .frame ∧ x.phase ≠ .wait) ∨ x.tgt.isSome → exec (.autoBusClear n high) s = .next s) ∧
  (∀ high, (x.phase = .frame ∨ x.phase = .wait) → x.tgt = none → s.hub.bit (twReg n 4) 2 = false →
    gives (.autoBusClear n high) { x with phase := .done 7 }) ∧
  ((x.phase = .frame ∨ x.phase = .wait) → x.tgt = none → s.hub.bit (twReg n 4) 2 = true → gives (.autoBusClear n true) (starts x)) ∧
  ((x.phase = .frame ∨ x.phase = .wait) → x.tgt = none → s.hub.bit (twReg n 4) 2 = true →
    ∃ t', exec (.autoBusClear n false) s = .next t' ∧ t'.hub.twt n = { x with stuck := true, freeAt := 0, phase := .done 7 } ∧
      t'.hub.bit (twReg n 0x07C) 3 = true ∧ t'.mem = s.mem) ∧
  (x.phase = .frame → gives (.twAbort n) { x with freeAt := free, phase := .done 2 }) ∧
  (x.phase = .wait → gives (.twAbort n) { x with phase := .done 2 }) ∧
  (x.phase ≠ .frame → x.phase ≠ .wait → exec (.twAbort n) s = .next s)

/-- Enables and COMMIT of a two-wire port, and the addressing of the hub as a target (R163, R169, R172 to R176, R178 to R180, R227): an address that is
not the hub's makes the bus busy; one that is opens a frame for a command code the hub knows, and answers an R after a code that is read; a write that a
START cuts short is counted; in HOLLOW and BASIN the hub sends NACK and may be woken. -/
def Obligations.TwoWireTarget : Prop := ∀ (s : State) (n : Nat), s.hub.sysq = [] → n < 8 →
  let x := s.hub.twt n
  let counts := fun (h : Hub) (lsb : Nat) => h.setFld (twReg n 0x028) lsb 8 (min 255 (h.fld (twReg n 0x028) lsb 8 + 1))
  let short := x.tgt.any (fun fr => !fr.rd && fr.code.any (fun c => !readCodes.contains c.toNat))
  let base := if short = true then counts s.hub 16 else s.hub
  let other := base.setTwt n { x with busy := true, freeAt := 0, tgt := none }
  let idle := x.phase ≠ .frame ∧ s.hub.pwr.state < 3 ∧ (x.pending = false ∨ x.tgt.isSome)
  (∀ en : Bool, exec (.twCtrlEnable n en) s = .next (s.withHub (s.hub.setFld (twReg n 0) 0 1 en.toNat))) ∧
  exec (.tgtEnable n true) s = .next (s.withHub (s.hub.setFld (twReg n 0) 4 1 1)) ∧
  (x.pending = false ∨ x.phase = .frame →
    exec (.tgtEnable n false) s = .next (s.withHub ((s.hub.setFld (twReg n 0) 4 1 0).setTwt n { x with tgt := none }))) ∧
  (∀ k, s.hub.twCheck n = some k → exec (.twCommit n) s = .next (s.withHub
    (((s.hub.discard (twReg n 0) 0x1000).setTwt n { x with pending := false }).flag (twErr n) 2 k))) ∧
  (s.hub.twCheck n = none → x.inFrame = true →
    exec (.twCommit n) s = .next (s.withHub ((s.hub.capture (twReg n 0) 0x1000).setTwt n { x with pending := true }))) ∧
  (s.hub.twCheck n = none → x.inFrame = false →
    ∃ t', exec (.twCommit n) s = .next t' ∧
      t'.hub.regs = ((s.hub.capture (twReg n 0) 0x1000).apply (twReg n 0) 0x1000).regs ∧ t'.hub.twt n = { x with pending := false } ∧
      (∀ k, k ≠ n → t'.hub.twt k = s.hub.twt k) ∧ t'.mem = s.mem) ∧
  (∀ a rd code, x.phase = .frame → exec (.targetAddressMatch n a rd code) s = .next s) ∧
  (∀ a rd code, x.phase ≠ .frame → s.hub.targetMatch n a = none → exec (.targetAddressMatch n a rd code) s = .next (s.withHub other)) ∧
  (∀ a rd code pec, x.phase ≠ .frame → s.hub.targetMatch n a = some pec → 3 ≤ s.hub.pwr.state →
    s.hub.bit 0x1010C 8 = false → exec (.targetAddressMatch n a rd code) s = .next (s.withHub (counts other 0))) ∧
  (∀ a rd code pec, x.phase ≠ .frame → s.hub.targetMatch n a = some pec → 3 ≤ s.hub.pwr.state →
    s.hub.bit 0x1010C 8 = true →
    exec (.targetAddressMatch n a rd code) s = .next (s.withHub ((counts other 0).wakeBy 4 s.hub.wakeCeil))) ∧
  (∀ a c pec, s.hub.targetMatch n a = some pec → idle → targetCodes.contains c.toNat = true →
    exec (.targetAddressMatch n a false (some c)) s = .next (s.withHub (base.setTwt n { x with
      busy := true, freeAt := 0
      tgt := some {
        addr := a, pec := pec, code := some c, rd := false, first := a
        item := if c = 0x21 then ((s.hub.eq_ 0).head.map (fun i => packRecord i.rcd)).getD 0 else 0 } }))) ∧
  (∀ a c pec, s.hub.targetMatch n a = some pec → idle → targetCodes.contains c.toNat = false →
    exec (.targetAddressMatch n a false (some c)) s = .next (s.withHub (counts other 8))) ∧
  (∀ a pec, s.hub.targetMatch n a = some pec → idle →
    exec (.targetAddressMatch n a false none) s = .next (s.withHub (base.setTwt n { x with
      busy := true, freeAt := 0, tgt := some { addr := a, pec := pec, code := none, rd := false, first := a, item := 0 } }))) ∧
  (∀ a code pec (fr : TargetFrame) c, s.hub.targetMatch n a = some pec → idle →
    x.tgt = some fr → fr.rd = false → fr.code = some c → readCodes.contains c.toNat = true →
    exec (.targetAddressMatch n a true code) s = .next (s.withHub (base.setTwt n { x with
      busy := true, freeAt := 0, tgt := some { fr with rd := true, pec := pec, addr := a } }))) ∧
  (∀ a code pec, s.hub.targetMatch n a = some pec → idle →
    (∀ fr c, x.tgt = some fr → fr.rd = false → fr.code = some c → readCodes.contains c.toNat = false) →
    exec (.targetAddressMatch n a true code) s = .next (s.withHub other)) ∧
  (∀ a rd code pec, s.hub.targetMatch n a = some pec → x.phase ≠ .frame → s.hub.pwr.state < 3 → x.pending = true → x.tgt = none →
    ∃ t', exec (.targetAddressMatch n a rd code) s = .next t' ∧ (t'.hub.twt n).pending = false ∧ (t'.hub.twt n).busy = true ∧
      t'.hub.capt = s.hub.capt.filter (fun e => !(twReg n 0 ≤ e.1 && e.1 < twReg n 0 + 0x1000))) ∧
  (s.hub.bit (twReg n 4) 1 = true → x.tgt.isSome → (x.pending = false ∨ x.phase = .frame) →
    exec (.targetTimeout n) s = .next (s.withHub (counts (s.hub.setTwt n { x with tgt := none }) 24))) ∧
  (s.hub.bit (twReg n 4) 1 = false ∨ x.tgt = none → exec (.targetTimeout n) s = .next s)

/-- Start and completion of a port's transaction (R150, R153, R165, R169, R171, R184, R189 to R191): of the waiting ones the highest class starts, the
earliest trigger among those, then the lowest entry; SEN_N falls no earlier than SETTLE after a change of the code and MINHIGH after its last rise; a
completion with OK frees the port and hands the value, with its stamp, to the stream the entry feeds. -/
def Obligations.PortTransactions : Prop := ∀ (s : State) (i n : Nat) (t : Txn), s.hub.sysq = [] → i < 128 → n < 16 → t.src = .entry i →
  let q := s.hub.pq n
  let x := s.hub.spt n
  let e := s.hub.txe i
  let tq := s.hub.pq (16 + n)
  let y := s.hub.twt n
  let quiet := (∀ k, k < 128 → (s.hub.txe k).held = none) ∧ (∀ k, k < 64 → (s.hub.prb k).waiting = false) ∧ (n = 0 → s.hub.flashDue = 0)
  let first := fun l : List Txn => t ∈ l ∧ ∀ u ∈ l, u ≠ t → u.cls < t.cls ∨ (u.cls = t.cls ∧ (t.at_ < u.at_ ∨ (t.at_ = u.at_ ∧ t.src.place < u.src.place)))
  let high := cycleOf_ s.hub.beatAt (x.rise + s.hub.fld (spReg n 4) 8 5 * 160)
  let change := max s.hub.portCycle (cycleOf_ s.hub.beatAt (x.rise + 160))
  let sel := if s.hub.now < x.change then x.selOld else x.sel
  let taken := fun (l : List Txn) (p : Nat) (t' : State) => (t'.hub.pq p).active = some t ∧ (t'.hub.pq p).waiting = l.erase t ∧
    t'.hub.txe i = { e with queued := false, active := true, started := some s.hub.now } ∧ t'.hub.regs = s.hub.regs ∧ t'.mem = s.mem
  let fresh := { y with tries := 0, words := [], nacks := 0, arbs := 0, waits := 0, last := 0, hold := 0, data := [], status := 0 }
  let fed := fun sid => e.held = none ∧ s.hub.entryAbsent i = false ∧ s.hub.fedBy i = [sid] ∧ s.hub.bank sid ≠ 2 ∧ s.hub.forms sid = true ∧
    ∀ k, k < 128 → s.hub.txOn k = true → s.hub.trig k ≠ 3
  let gives := fun (t' : State) (sid p : Nat) (at_ : Instant) (str : List Bool) (status : Half) => (t'.hub.pq p).active = none ∧
    t'.hub.txe i = { e with active := false, spaced := false, last := 0 } ∧
    t'.hub.handoff = s.hub.handoff ++ [(sid, {
      instant := at_ + inst256 (Config.outDelay p s.hub.age.temp).toNat, value := replyValue t str, sat := false, kind := .port t.unsig,
      status := status, period := t.per, pos := none, pass := false, gap := false, fresh := false })] ∧ t'.hub.regs = s.hub.regs ∧ t'.mem = s.mem
  ((q.active.isSome ∨ q.waiting = []) → exec (.portStartTransaction (.sp n)) s = .next s) ∧
  (q.active = none → first q.waiting → s.hub.bit (spReg n 0) 0 = true → x.pending = false → quiet →
    ∃ t', exec (.portStartTransaction (.sp n)) s = .next t' ∧ taken q.waiting n t' ∧
      (t'.hub.spt n).phase = .frame ∧ (t'.hub.spt n).at_ = s.hub.beatAt ∧
      (t'.hub.spt n).sen = (if t.sel = sel then max s.hub.portCycle high else max (change + s.hub.fld (spReg n 4) 0 5) high) ∧
      (t'.hub.spt n).sel = t.sel ∧ (t'.hub.spt n).selOld = sel ∧ (t'.hub.spt n).change = s.hub.beatAt + change * 160 ∧
      (t'.hub.spt n).fmt = t.fmt ∧ (t'.hub.spt n).tries = 0 ∧ (t'.hub.spt n).words = s.hub.spFormat n t.fmt) ∧
  (q.active = none → first q.waiting → s.hub.bit (spReg n 0) 0 = false → quiet →
    ∃ t', exec (.portStartTransaction (.sp n)) s = .next t' ∧ taken q.waiting n t' ∧ t'.hub.spt n = { x with phase := .done 3 }) ∧
  (n < 8 → (tq.active.isSome ∨ tq.waiting = []) → exec (.portStartTransaction (.tw n)) s = .next s) ∧
  (n < 8 → tq.active = none → first tq.waiting → y.pending = false → quiet →
    ∃ t', exec (.portStartTransaction (.tw n)) s = .next t' ∧ taken tq.waiting (16 + n) t' ∧
      t'.hub.twt n = (if s.hub.bit (twReg n 0) 0 = false then { fresh with phase := .done 3 }
        else if y.stuck = true then { fresh with phase := .done 7 }
        else if s.hub.bit (twReg n 4) 0 = true ∧ y.busy = true then { fresh with phase := .wait }
        else { fresh with
          phase := .frame, base := s.hub.beatBase, at_ := s.hub.beatAt, busy := true, freeAt := 0, fmt := t.fmt,
          words := s.hub.twFormat n t.fmt })) ∧
  ((q.active = none ∨ x.phase = .idle ∨ x.phase = .frame ∨ x.phase = .wait) → exec (.transactionComplete (.sp n)) s = .next s) ∧
  (∀ sid, q.active = some t → x.phase = .done 0 → x.pending = false → fed sid →
    ∃ t', exec (.transactionComplete (.sp n)) s = .next t' ∧ (t'.hub.spt n).phase = .idle ∧
      gives t' sid n (s.hub.portStamp x.base x.at_ (x.sen + refCycles x.words t.ref))
        (x.data.flatMap (fun w => bitsMsb (wordWidth x.words) w.toNat)) x.status) ∧
  (∀ code, q.active = some t → x.phase = .done code → x.pending = false → e.held = none → s.hub.entryAbsent i = false → s.hub.fedBy i = [] →
    (∀ k, k < 128 → s.hub.txOn k = true → s.hub.trig k ≠ 3) →
    ∃ t', exec (.transactionComplete (.sp n)) s = .next t' ∧ t'.hub.spt n = { x with phase := .idle } ∧ (t'.hub.pq n).active = none ∧
      t'.hub.txe i = { e with active := false, spaced := false, last := BitVec.ofNat 4 code } ∧ t'.hub.handoff = s.hub.handoff ∧
      t'.hub.regs = s.hub.regs ∧ t'.mem = s.mem) ∧
  (n < 8 → (tq.active = none ∨ y.phase = .idle ∨ y.phase = .frame ∨ y.phase = .wait) → exec (.transactionComplete (.tw n)) s = .next s) ∧
  (∀ sid, n < 8 → tq.active = some t → y.phase = .done 0 → y.pending = false → fed sid →
    ∃ t', exec (.transactionComplete (.tw n)) s = .next t' ∧ (t'.hub.twt n).phase = .idle ∧
      gives t' sid (16 + n) (s.hub.portStamp y.base y.at_ (if t.ref = 1 ∧ twf y.words 0 8 6 ≠ 0 then y.rstart else y.start))
        ((if t.le then y.data.reverse else y.data).flatMap (fun b => bitsMsb 8 b.toNat)) y.status)

/-! ### Discovery and event recognition (R195 to R218) -/

/-- Probes (R195 to R198): EN is checked and starts afresh; a run judges what METHOD reads (the identity a frame or a grandmaster gives, transitions of a
line, edges of a beacon), keeps it in PR_IDENT, and a hit makes the probe PRESENT, posting ATTACH when it was not; misses make it ABSENT at the count set,
posting DETACH when it was PRESENT; without Mbonik, with EN at 0, after a frame that was cut, or where nothing can be read, a run judges nothing. -/
def Obligations.ProbeCommands : Prop := ∀ (s : State) (j : Nat), s.hub.sysq = [] → j < 64 →
  let x := s.hub.prb j
  let on := s.hub.bit (prReg j 0) 0
  let fresh : Hub := s.hub.setPrb j { x with result := none, seen := 0 }
  let m := s.hub.probeMethod j
  let n := s.hub.probeIndex j
  let lineOn := (s.hub.grp (s.hub.groupOf n)).on
  let reads := fun (code : Nat) (id : Word) =>
    if m = 2 then some (transitions ((s.hub.hsl n).line.take (min 1024 (s.hub.hsl n).lineN)))
    else if m = 3 then some x.seen
    else if m = 4 then (if (s.hub.mac n).link = true ∧ 0 < x.seen then some x.gm.toNat else none)
    else if code = 0 then some id.toNat else none
  let hit := fun v : Nat => if m = 2 then 8 ≤ v else if m = 3 then 1 ≤ v
    else (BitVec.ofNat 32 v ^^^ s.hub.reg (prReg j 0x8)) &&& s.hub.reg (prReg j 0xC) = 0
  let judges := fun code : Nat => s.hub.mbonik = true ∧ on = true ∧ (m = 2 → lineOn = true) ∧ (m = 4 → s.hub.pwr.state ≤ 1) ∧
    (m ≠ 2 → m ≠ 3 → m ≠ 4 → code ≠ 2)
  let settled := fun st : ProbeState => ∀ sid ∈ s.hub.liveSids, (s.hub.setPrb j { x with state := st }).sourceAbsent sid = (s.hub.strm sid).detach
  let ident := fun (h : Hub) (code : Nat) (id : Word) =>
    h.reg (prReg j 0x14) = ((reads code id).map (fun v => BitVec.ofNat 32 v)).getD (s.hub.reg (prReg j 0x14)) ∧ ∀ k, k ≠ j → h.prb k = s.hub.prb k
  let misses := min 15 (x.misses + 1)
  let fails := fun (code : Nat) (id : Word) => judges code ∧ ∀ v, reads code id = some v → ¬ hit v
  (on = true → exec (.probeEnable j true) s = .next s) ∧
  (on = false → s.hub.probeOk j = true → exec (.probeEnable j true) s = .next (s.withHub ((s.hub.setFld (prReg j 0) 0 1 1).setPrb j
    { x with state := .unknown, misses := 0, epochs := 0, seen := 0, result := none }))) ∧
  (on = false → s.hub.probeOk j = false → exec (.probeEnable j true) s = .next (s.withHub (s.hub.flag schErr 0 (j + 0x80)))) ∧
  (settled .off →
    exec (.probeEnable j false) s = .next (s.withHub ((s.hub.setFld (prReg j 0) 0 1 0).setPrb j { x with state := .off, result := none }))) ∧
  (∀ code id, ¬ judges code → exec (.probeRun j code id) s = .next (s.withHub fresh)) ∧
  (∀ code id v, judges code → reads code id = some v → hit v → x.state = .present →
    ∃ t, exec (.probeRun j code id) s = .next t ∧ t.hub.prb j = { x with state := .present, misses := 0, result := none, seen := 0 } ∧
      ident t.hub code id ∧ t = { s with hub.regs := t.hub.regs, hub.probes := t.hub.probes }) ∧
  (∀ code id v, judges code → reads code id = some v → hit v → x.state ≠ .present → s.hub.pwr.state ≠ 4 → settled .present →
    ∃ h : Hub, exec (.probeRun j code id) s = .next (State.sysStore (s.withHub h) (hubEvent 0x08 j (BitVec.ofNat 40 v) s.hub.instant 0xFFFF)) ∧
      h.prb j = { x with state := .present, misses := 0, result := none, seen := 0 } ∧ ident h code id ∧
      h.fld (prReg j 0x18) 0 8 = min 255 (s.hub.fld (prReg j 0x18) 0 8 + 1)) ∧
  (∀ code id, fails code id → (x.state = .absent ∨ misses < s.hub.fld (prReg j 0) 12 4) →
    ∃ t, exec (.probeRun j code id) s = .next t ∧ t.hub.prb j = { x with misses := misses, result := none, seen := 0 } ∧ ident t.hub code id ∧
      t = { s with hub.regs := t.hub.regs, hub.probes := t.hub.probes }) ∧
  (∀ code id, fails code id → x.state = .present → s.hub.fld (prReg j 0) 12 4 ≤ misses → s.hub.pwr.state ≠ 4 → settled .absent →
    (∀ i ∈ s.hub.boundTo j, (s.hub.txe i).active = false ∧ (s.hub.txe i).queued = false ∧ (s.hub.txe i).held = none) →
    ∃ h : Hub, exec (.probeRun j code id) s = .next (State.sysStore (s.withHub h)
        (hubEvent 0x09 j (BitVec.ofNat 40 misses) s.hub.instant 0xFFFF)) ∧
      h.prb j = { x with state := .absent, misses := misses, result := none, seen := 0 } ∧ ident h code id ∧
      h.fld (prReg j 0x18) 8 8 = min 255 (s.hub.fld (prReg j 0x18) 8 8 + 1)) ∧
  (∀ code id, fails code id → x.state ≠ .present → x.state ≠ .absent → s.hub.fld (prReg j 0) 12 4 ≤ misses → settled .absent →
    (∀ i ∈ s.hub.boundTo j, (s.hub.txe i).active = false ∧ (s.hub.txe i).queued = false ∧ (s.hub.txe i).held = none) →
    ∃ t, exec (.probeRun j code id) s = .next t ∧ t.hub.prb j = { x with state := .absent, misses := misses, result := none, seen := 0 } ∧
      ident t.hub code id ∧ t = { s with hub.regs := t.hub.regs, hub.probes := t.hub.probes })

/-- A sample at a recogniser (R200, R202 to R204, R211, R216), the record leaving the list of records at stage 7 where it waits there: one that does not run,
or is a COMBINE, takes none; a record that gives no sample is counted; LEVEL, BAND, SLOPE and COUNT set OUT by their rules, a SLOPE with too few samples
only keeping its history; and on a rise an event goes to the queue set, if no other tap of the record has still to take it. -/
def Obligations.RecogniserSamples : Prop := ∀ (s : State) (r : Nat) (rcd : Record), s.hub.sysq = [] → s.hub.fired = [] → r < 128 →
  let x := s.hub.rcg r
  let found := s.hub.taps.find? (fun e => e.1 == r && e.2.rcd == rcd)
  let f := (found.map (fun e => e.2)).getD (bareFlight rcd)
  let base : Hub := { s.hub with taps := (found.map (fun e => s.hub.taps.erase e)).getD s.hub.taps }
  let cfg := s.hub.reg (recReg r 4)
  let act := s.hub.reg (recReg r 0x1C)
  let hi := extWord (cfg.getLsbD 7) (s.hub.reg (recReg r 8))
  let lo := extWord (cfg.getLsbD 7) (s.hub.reg (recReg r 0xC))
  let hy : Int := (s.hub.reg (recReg r 0x10)).toNat
  let plain := s.hub.recRuns r = true ∧ s.hub.pwr.state < 3 ∧ s.hub.recGated r = false ∧ x.pending = false ∧
    x.dropped = false ∧ rcd.flg.getLsbD 1 = false ∧ s.hub.fld (recReg r 4) 4 3 ≠ 7 ∧ s.hub.combsOf r = []
  let last := base.taps.all (fun y => !(y.2.sid == f.sid && y.2.seq == f.seq)) = true
  let sample := s.hub.sampleAt r f (s.hub.fld (recReg r 4) 4 3)
  let turns := fun (new : Bool) (v : Int) (y : Recog) => ∃ t, exec (.recSample r rcd) s = .next t ∧ (t.hub.rcg r).out = new ∧
    (t.hub.rcg r).last = BitVec.ofNat 32 (v32 v) ∧ (t.hub.rcg r).past = y.past ∧ (t.hub.rcg r).hits = y.hits ∧
    (∀ k, k ≠ r → t.hub.rcg k = s.hub.rcg k)
  (s.hub.recRuns r = false ∨ s.hub.recKind r = 5 → exec (.recSample r rcd) s = .next (s.withHub base)) ∧
  (plain → s.hub.recKind r ≠ 5 → sample = none → exec (.recSample r rcd) s = .next (s.withHub
    (base.setFld (recReg r 0x40) 0 16 (min 65535 (s.hub.fld (recReg r 0x40) 0 16 + 1))))) ∧
  (∀ m, plain → sample = some m → s.hub.recKind r = 0 → turns (if hi ≤ m.x then true else if m.x < lo then false else x.out) m.x x) ∧
  (∀ m, plain → sample = some m → s.hub.recKind r = 1 →
    turns (if lo ≤ m.x ∧ m.x ≤ hi then true else if m.x < lo - hy ∨ hi + hy < m.x then false else x.out) m.x x) ∧
  (∀ m, plain → sample = some m → s.hub.recKind r = 2 → x.past.length ≤ bits cfg 16 4 →
    exec (.recSample r rcd) s = .next (s.withHub (base.setRcg r { x with past := (m.x :: x.past).take 16 }))) ∧
  (∀ m old, plain → sample = some m → s.hub.recKind r = 2 → x.past[bits cfg 16 4]? = some old →
    let d : Int := if cfg.getLsbD 10 then ((m.x - old).natAbs : Int) else m.x - old
    turns (if hi ≤ d then true else if d < lo then false else x.out) m.x { x with past := (m.x :: x.past).take 16 }) ∧
  (∀ m, plain → sample = some m → s.hub.recKind r = 4 →
    let hit := if bits cfg 13 2 = 0 then decide (hi ≤ m.x) else if bits cfg 13 2 = 1 then decide (m.x ≤ lo)
      else if bits cfg 13 2 = 2 then decide (lo ≤ m.x ∧ m.x ≤ hi) else decide (m.x < lo ∨ hi < m.x)
    let hits := (hit :: x.hits).take (bits cfg 20 5 + 1)
    turns (decide (bits cfg 25 5 + 1 ≤ (hits.filter (fun b => b)).length)) m.x { x with hits := hits }) ∧
  (∀ m, plain → sample = some m → s.hub.recKind r = 0 → (x.out = true ∧ lo ≤ m.x ∨ x.out = false ∧ m.x < hi) →
    exec (.recSample r rcd) s = .next (s.withHub (base.setRcg r { x with last := BitVec.ofNat 32 (v32 m.x) }))) ∧
  (∀ m, plain → last → sample = some m → s.hub.recKind r = 0 → x.out = false → hi ≤ m.x → s.hub.fld (recReg r 4) 8 2 = 0 →
    act.getLsbD 0 = true → act.getLsbD 18 = false → act.getLsbD 19 = false → act.getLsbD 20 = false →
    (s.hub.eq_ (bits act 1 5)).items.length < 32 →
    ∃ t, exec (.recSample r rcd) s = .next t ∧
      t.hub.rcg r = { x with last := BitVec.ofNat 32 (v32 m.x), out := true, rise := some m.t, roseAt := s.hub.now } ∧
      (t.hub.eq_ (bits act 1 5)).items = (s.hub.eq_ (bits act 1 5)).items ++ [{
        rcd := {
          ts := tsOf m.t, pos := (m.pos.map (fun p => BitVec.ofNat 16 p)).getD 0xFFFF, sid := rcd.sid, tsf := tsfOf m.t,
          flg := (rcd.flg &&& 7) ||| 8,
          pay := eventPay (0x40 + bits act 12 6) (bits act 8 4) r (BitVec.ofNat 40 (v32 m.x + 2 ^ 32)) },
        at_ := s.hub.now, ripe := false }] ∧
      t.hub.fld (recReg r 0x3C) 0 16 = min 65535 (s.hub.fld (recReg r 0x3C) 0 16 + 1) ∧ t.mem = s.mem)

/-- Windows and the WIN of a COMBINE (R205 to R210): an open edge opens a window, another replaces it and is counted, a close edge makes it settle, SETTLE_MS
counting from the edge's tick; a settling window settles when SETTLE_MS is over and reports a PEAKWIN's peak at HI or above; an input held true by WIN alone
turns false when it runs out. -/
def Obligations.WindowCommands : Prop := ∀ (s : State) (r : Nat) (e : WinEdge), s.hub.sysq = [] → s.hub.fired = [] → r < 128 →
  let x := s.hub.rcg r
  let taken := fun opens => ({ s.hub with winEdges := s.hub.winEdges.erase (r, opens, e) } : Hub)
  let count := fun g : Hub => g.setFld (recReg r 0x3C) 16 8 (min 255 (s.hub.fld (recReg r 0x3C) 16 8 + 1))
  let gated := s.hub.recRuns r = true ∧ s.hub.recGated r = true
  let quiet := s.hub.recKind r ≠ 3 ∨ x.out = false
  let new : Window := { open_ := e, close := none, closedAt := 0, peak := none, samples := 0, gap := false }
  let ends := s.hub.now - (if before s.hub.tb.acc e.tick = true then 0 else (s.hub.tb.acc - e.tick).toNat / 2 ^ 26)
  let elapsed := fun w : Window => w.closedAt + s.hub.fld (recReg r 0x18) 16 8 * 64000000 ≤ s.hub.now
  let hi := extWord (s.hub.bit (recReg r 4) 7) (s.hub.reg (recReg r 8))
  (¬ gated → exec (.winOpen r e) s = .next (s.withHub (count (taken true)))) ∧
  (gated → x.opened = none → quiet → exec (.winOpen r e) s = .next (s.withHub ((taken true).setRcg r { x with opened := some new }))) ∧
  (gated → x.opened.isSome → x.settling = none → quiet →
    exec (.winOpen r e) s = .next (s.withHub ((count (taken true)).setRcg r { x with opened := some new }))) ∧
  (¬ gated ∨ x.opened = none → exec (.winClose r e) s = .next (s.withHub (count (taken false)))) ∧
  (∀ w, gated → x.opened = some w → (x.settling = none ∨ ∃ v, x.settling = some v ∧ v.peak = none) →
    ∃ t, exec (.winClose r e) s = .next t ∧ t.hub.rcg r = { x with opened := none, settling := some { w with close := some e, closedAt := ends } } ∧
      (∀ k, k ≠ r → t.hub.rcg k = s.hub.rcg k) ∧ t = { s with hub.winEdges := s.hub.winEdges.erase (r, false, e), hub.recs := t.hub.recs }) ∧
  ((∀ w, x.settling = some w → ¬ elapsed w) → exec (.settleTimeout r) s = .next s) ∧
  (∀ w, x.settling = some w → elapsed w → (∀ p, w.peak = some p → s.hub.recKind r ≠ 3 ∨ p.1 < hi) →
    exec (.settleTimeout r) s = .next (s.withHub (s.hub.setRcg r { x with settling := none }))) ∧
  (∀ w p, x.settling = some w → elapsed w → w.peak = some p → s.hub.recKind r = 3 → hi ≤ p.1 → s.hub.pwr.state < 3 → s.hub.combsOf r = [] →
    ∃ t, exec (.settleTimeout r) s = .next t ∧ (t.hub.rcg r).settling = none ∧ (t.hub.rcg r).out = true ∧
      t.hub.fld (recReg r 0x3C) 0 16 = min 65535 (s.hub.fld (recReg r 0x3C) 0 16 + 1)) ∧
  (∀ k, s.hub.winOver r k = none → exec (.combineWinExpire r k) s = .next s) ∧
  (∀ k i u, s.hub.winOver r k = some u → combInputs (s.hub.reg (recReg r 0x14)) = [(k, i)] → x.pending = false → x.out = true →
    s.hub.inputTrue i (s.hub.fld (recReg r 0x18) 0 16) u = false → s.hub.fld (recReg r 4) 8 2 = 0 → s.hub.combsOf r = [] →
    ∃ t, exec (.combineWinExpire r k) s = .next t ∧ (t.hub.rcg r).out = false ∧ (t.hub.rcg r).truth = 0 ∧
      (∀ j, j ≠ r → t.hub.rcg j = s.hub.rcg j) ∧ t = { s with hub.recs := t.hub.recs })

/-- EN and COMMIT of a recogniser (R203, R210, R216, R218): checked; a start begins afresh, a COMBINE finding the inputs that are true then; a stop applies
what waits and abandons its windows; what is committed waits for the next sample while it runs. -/
def Obligations.RecogniserControl : Prop := ∀ (s : State) (r : Nat), s.hub.sysq = [] → s.hub.fired = [] → r < 128 →
  let x := s.hub.rcg r
  let on := s.hub.bit (recReg r 0) 0
  let good := s.hub.recOk r (fun off => s.hub.reg (recReg r off))
  let commits := s.hub.recOk r (fun off => s.hub.seen (recReg r off))
  let begun := s.hub.setFld (recReg r 0) 0 1 1
  (on = true → exec (.recEnable r true) s = .next s) ∧
  (on = false → good = true → s.hub.recKind r ≠ 5 → exec (.recEnable r true) s = .next (s.withHub (begun.setRcg r
    { Recog.init with last := x.last, held := x.held, pending := x.pending }))) ∧
  (on = false → good = true → s.hub.recKind r = 5 →
    ∃ m : BitVec 4, exec (.recEnable r true) s = .next (s.withHub (begun.setRcg r
        { Recog.init with last := x.last, held := x.held, pending := x.pending, truth := m })) ∧
      ∀ k, k < 4 → (m.getLsbD k = true ↔ ∃ i, (k, i) ∈ combInputs (s.hub.reg (recReg r 0x14)) ∧
        begun.inputTrue i (s.hub.fld (recReg r 0x18) 0 16) (tickStated s.hub.tb.acc) = true)) ∧
  (on = false → good = false → exec (.recEnable r true) s = .next (s.withHub (s.hub.flag recErr 2 r))) ∧
  (on = false → exec (.recEnable r false) s = .next s) ∧
  (on = true → ∃ t, exec (.recEnable r false) s = .next t ∧ t.hub.bit (recReg r 0) 0 = false ∧ (t.hub.rcg r).opened = none ∧
    (t.hub.rcg r).settling = none ∧ (t.hub.rcg r).pending = false) ∧
  (on = true → s.hub.combsOf r = [] →
    ∃ t, exec (.recEnable r false) s = .next t ∧ t.hub.rcg r = { x with opened := none, settling := none, pending := false } ∧
      t.hub.regs = (if x.pending = true then (s.hub.setFld (recReg r 0) 0 1 0).apply (recReg r 0) 0x80 else s.hub.setFld (recReg r 0) 0 1 0).regs ∧
      (∀ k, k ≠ r → t.hub.rcg k = s.hub.rcg k) ∧ t = { s with hub.regs := t.hub.regs, hub.capt := t.hub.capt, hub.recs := t.hub.recs }) ∧
  (commits = false → exec (.recCommit r) s = .next (s.withHub
    (((s.hub.discard (recReg r 0) 0x80).setRcg r { x with pending := false }).flag recErr 2 r))) ∧
  (commits = true → on = true → exec (.recCommit r) s = .next (s.withHub
    ((s.hub.capture (recReg r 0) 0x80).setRcg r { x with pending := true }))) ∧
  (commits = true → on = false →
    ∃ t, exec (.recCommit r) s = .next t ∧ t.hub.regs = ((s.hub.capture (recReg r 0) 0x80).apply (recReg r 0) 0x80).regs ∧
      t.hub.rcg r = { x with pending := false } ∧ (∀ k, k ≠ r → t.hub.rcg k = s.hub.rcg k) ∧ t.mem = s.mem)

/-! ### Engines (R240 to R261, R292 to R295) -/

/-- RUN, HALT, SWI, SERVICE and RESET of an engine (R251, R258, R259, R261), each in the states where the page acts, and on a RETIRED
engine, which ignores it. HALT and RESET drain the store buffer; a RESET abandons the run, which is then run again before what the queue holds. -/
def Obligations.EngineControl : Prop := ∀ (s : State) (e : Nat), s.hub.sysq = [] → e < 72 →
  let x := s.hub.eng e
  let gone := x.st = .retired
  let halted := s.hub.bit (engReg e 0) 1
  let drained := fun t : State => (x.sbuf = none → t.mem = s.mem) ∧ ∀ a ws, x.sbuf = some (a, ws) → t.mem = (s.ramStore e a ws).mem
  (x.st = .reset → exec (.engRun e) s = .next (s.withHub ((s.hub.setFld (engReg e 0) 0 1 1).setEng e
    { x with pc := 0, st := if halted then .halted else .idle, back := .idle }))) ∧
  (x.st ≠ .reset → exec (.engRun e) s = .next s) ∧
  (gone ∨ halted = true → exec (.engHalt e) s = .next s) ∧
  (¬ gone → x.st.runs = false → halted = false → exec (.engHalt e) s = .next (s.withHub (s.hub.setFld (engReg e 0) 1 1 1))) ∧
  (x.st.runs = true → halted = false →
    ∃ t, exec (.engHalt e) s = .next t ∧ t.hub.eng e = { x with back := x.st, st := .halted, res := none, sbuf := none } ∧
      (∀ k, k ≠ e → t.hub.eng k = s.hub.eng k) ∧ t.hub.regs = (s.hub.setFld (engReg e 0) 1 1 1).regs ∧ drained t ∧
      t = { s with mem := t.mem, hub := { s.hub with regs := t.hub.regs, engines := t.hub.engines } }) ∧
  (gone ∨ halted = false → exec (.engResume e) s = .next s) ∧
  (halted = true → ¬ gone → x.st ≠ .halted → exec (.engResume e) s = .next (s.withHub (s.hub.setFld (engReg e 0) 1 1 0))) ∧
  (halted = true → x.st = .halted → exec (.engResume e) s = .next (s.withHub ((s.hub.setFld (engReg e 0) 1 1 0).setEng e
    { x with st := x.back }))) ∧
  (gone → exec (.engSwi e) s = .next s) ∧
  (¬ gone → exec (.engSwi e) s = .next (s.withHub (s.hub.setFld (engReg e 0x1C) 0 1 1))) ∧
  (∀ b v, gone → exec (.engService b e v) s = .next s) ∧
  (∀ v, x.st = .reset ∨ x.st = .halted → exec (.engService .col e v) s = .next (s.withHub ((s.hub.setFld (engReg e 0) 3 1 v.toNat).setEng e
    { x with sr := putBit x.sr 10 v }))) ∧
  (∀ b v, ¬ gone → b ≠ .col ∨ x.st.runs = true → exec (.engService b e v) s = .next (s.withHub (s.hub.flag (engErr e) 2 0))) ∧
  (gone → exec (.engReset e) s = .next s) ∧
  (¬ gone →
    ∃ t, exec (.engReset e) s = .next t ∧ (t.hub.eng e).st = .reset ∧ (t.hub.eng e).pc = 0 ∧ (t.hub.eng e).stack = [] ∧
      (t.hub.eng e).sbuf = none ∧ (t.hub.eng e).run = none ∧ (t.hub.eng e).cycles = x.cycles ∧ t.hub.fld (engReg e 0) 0 2 = 0 ∧
      (t.hub.eng e).queue = x.queue ∧
      (t.hub.eng e).again = (match x.run with
        | none => x.again
        | some r => if r.entry.third = true then x.again else { r.entry with rerun := true } :: x.again) ∧
      (∀ k, k ≠ e → t.hub.eng k = s.hub.eng k) ∧ drained t ∧
      t = { s with mem := t.mem, hub := { s.hub with regs := t.hub.regs, engines := t.hub.engines } })

/-- Entry through a vector (R249 to R252, R256): an interrupt that is due enters vector 1; a run at its budget traps through vector 11. EPC
takes the PC, the PC becomes 16 times the vector, IE falls, IH rises, MODE and the flags stay, the reservation ends, and 4 cycles pass. -/
def Obligations.TrapEntry : Prop := ∀ (s : State) (e : Nat), s.hub.sysq = [] → e < 72 →
  let x := s.hub.eng e
  let entered := fun (v : Nat) (y : Engine) => y.epc = x.pc ∧ y.pc.toNat = 16 * v ∧ y.sr.getLsbD 8 = false ∧ y.sr.getLsbD 9 = true ∧
    (∀ k, k ≠ 8 → k ≠ 9 → y.sr.getLsbD k = x.sr.getLsbD k) ∧ y.esr.toNat % 16 = v ∧ y.esr.toNat / 16 % 16 = x.sr.toNat % 16 ∧
    y.esr.getLsbD 8 = x.sr.getLsbD 8 ∧ y.res = none ∧ y.st = .handler ∧ y.cycles = x.cycles + 4 ∧ y.stack = x.stack ∧
    y.pred = x.pred ∧ y.acc = x.acc ∧ y.sbuf = x.sbuf ∧ y.run = x.run ∧ y.queue = x.queue
  (s.hub.interruptDue e = false → exec (.interruptEntry e) s = .next s) ∧
  (s.hub.interruptDue e = true → ∃ y, exec (.interruptEntry e) s = .next (s.withHub (s.hub.setEng e y)) ∧ entered 1 y) ∧
  (s.hub.interruptDue e = true ↔ x.st.runs = true ∧ x.sr.getLsbD 8 = true ∧ x.sr.getLsbD 9 = false ∧
    (s.hub.bit (engReg e 0x1C) 0 = true ∧ s.hub.bit (engReg e 0x1C) 8 = true ∨
     s.hub.bit (engReg e 0x1C) 1 = true ∧ s.hub.bit (engReg e 0x1C) 9 = true)) ∧
  (x.run = none ∨ x.st ≠ .task ∨ x.sr.getLsbD 9 = true → exec (.budgetExceeded e) s = .next s) ∧
  (∀ r, x.run = some r → r.budget = 0 → exec (.budgetExceeded e) s = .next s) ∧
  (∀ r, x.run = some r → r.budget ≠ 0 → x.st = .task → x.sr.getLsbD 9 = false →
    ∃ y, exec (.budgetExceeded e) s = .next (s.withHub
        ((s.hub.setFld (engReg e 0x18) 16 8 (min 255 (s.hub.fld (engReg e 0x18) 16 8 + 1))).setEng e y)) ∧ entered 11 y)

/-- Dispatch, run start and code RAM (R243, R254, R255, R293, R294): the oldest waiting record of a stream joins the queue of its home engine, or in STEALING
its deque, and waits while that is full; an IDLE engine open to dispatch starts the run it must repeat, else that at the head of its queue, else the
descriptor it takes from its own deque's bottom or another's top; a code word is stored only while the engine is in RESET, HALTED or RETIRED,
is else discarded and flags BUSY, and a read finds code RAM as it stands in storage, whatever the write buffer holds (a spare
that shadows a live engine shows that engine's, R284). -/
def Obligations.EngineWork : Prop := ∀ (s : State) (e : Nat), s.hub.sysq = [] → e < 72 →
  let x := s.hub.eng e
  let stopped := x.st = .reset ∨ x.st = .halted ∨ x.st = .retired
  (∀ b o v, o < 0x8000 → stopped →
    exec (.codeRamWrite b (0x04000000 + 0x10000 * e + o) v) s =
      .next (s.store (0x04000000 + 0x10000 * e + o / 4 * 4) (bytesOf 4 v.toNat))) ∧
  (∀ b o v, o < 0x8000 → ¬ stopped →
    exec (.codeRamWrite b (0x04000000 + 0x10000 * e + o) v) s = .next (s.withHub (s.hub.flag (engErr e) 3 0))) ∧
  (∀ b o, o + 4 ≤ 0x8000 → exec (.rcRead b (0x04000000 + 0x10000 * e + o) 4) s = .next (s.withHub { s.hub with
    readData := BitVec.ofNat 128 (ofBytes (s.load (0x04000000 + 0x10000 * s.hub.mirror e + o) 4)) })) ∧
  (∀ sid, s.hub.flight.find? (waitsTask sid) = none → exec (.dispatch sid) s = .next s) ∧
  (∀ sid f, s.hub.flight.find? (waitsTask sid) = some f → (s.hub.strm sid).home = some e → s.hub.canHost e (s.hub.taskId sid) = true →
    let placed := s.hub.flight.map (fun g => if g.sid = f.sid ∧ g.seq = f.seq then { g with stage := .inTask } else g)
    let rerun := decide (f.stage = .toTask true)
    let full := if s.hub.rp.stealing = true then 64 ≤ s.dequeLen e else 8 ≤ x.queue.length
    (s.hub.rp.stealing = false → ¬ full →
      exec (.dispatch sid) s = .next (s.withHub
        (({ s.hub with flight := placed } : Hub).setEng e { x with queue := x.queue ++ [{ sid := sid, seq := f.seq, rerun := rerun }] }))) ∧
    (s.hub.rp.stealing = true → ¬ full →
      ∃ t, exec (.dispatch sid) s = .next t ∧ t.hub.flight = placed ∧
        t.mem = ((s.store (dequeSlot e (s.dequeBottom e)) (descriptor f.rcd sid rerun (s.hub.taskId sid) f.seq)).store (dequeHead e + 2)
          (bytesOf 2 (s.dequeBottom e + 1))).mem) ∧
    (full → (s.hub.flight.filter (waitsTask sid)).length ≤ 4 → exec (.dispatch sid) s = .next s)) ∧
  (s.hub.canRun e = false → exec (.taskRunStart e) s = .next s) ∧
  (x.again = [] → x.queue = [] → s.dequeTake e = none → exec (.taskRunStart e) s = .next s) ∧
  (∀ k a slot, s.hub.canRun e = true → x.again = [] → x.queue = [] → s.dequeTake e = some (k, a, slot) →
    ∃ t, exec (.taskRunStart e) s = .next t ∧ (t.hub.eng e).st = .task ∧ (t.hub.eng e).task.toNat = s.descriptorTask a ∧
      (t.hub.eng e).sid.toNat = s.commonsWord (a + 16) % 256 ∧
      (k = e → t.dequeBottom e = (s.dequeBottom e + 65535) % 65536) ∧ (k ≠ e → t.dequeTop k = (s.dequeTop k + 1) % 65536)) ∧
  (∀ d rest, s.hub.canRun e = true → x.again ++ x.queue = d :: rest → d.third = false → s.hub.taskSlot e (s.hub.taskId d.sid) = none →
    exec (.taskRunStart e) s = .next s) ∧
  (∀ d rest slot f, s.hub.canRun e = true → x.again ++ x.queue = d :: rest → d.third = false → x.sbuf = none →
    s.hub.taskSlot e (s.hub.taskId d.sid) = some slot → s.hub.flight.find? (fun f => f.sid == d.sid && f.seq == d.seq) = some f →
    ∃ t, exec (.taskRunStart e) s = .next t ∧
      (let z := t.hub.eng e
       z.again ++ z.queue = rest ∧ z.st = .task ∧ z.stack = [] ∧ z.pred = 1 ∧ z.pc.toNat = s.hub.fld (engReg e (0x80 + 4 * slot)) 0 15 ∧
       z.sr.getLsbD 8 = true ∧ z.run = some { entry := d, used := 0, budget := 256 * s.hub.fld (engReg e (0x80 + 4 * slot)) 24 8 } ∧
       z.task.toNat = s.hub.taskId d.sid % 256 ∧ z.sid.toNat = d.sid % 256 ∧ z.acc = x.acc ∧ z.cycles = x.cycles) ∧
      (∀ k, k ≠ e → t.hub.eng k = s.hub.eng k) ∧
      t.mem = (s.store (dataAddr e 0x1FE0)
        (recordBytes f.rcd ++ bytesOf 2 (d.sid + (decide ((s.hub.strm d.sid).lastEng ≠ some e)).toNat * 256 + d.rerun.toNat * 512) ++
          bytesOf 2 (s.hub.taskId d.sid) ++ bytesOf 4 (d.seq.toNat % 2 ^ 32) ++ bytesOf 8 0 ++ recordBytes f.rcd)).mem ∧
      (d.rerun = false → t.hub.regs = s.hub.regs))

/-! ### Icevo (R237 to R248, R262 to R277) -/

/-- The checks of R264 in their order, with the bytes, cycles, stack effect and leading bytes that R272 and R274 state of each instruction
(without REP for the string instructions). TRAP, BRK and TDONE pass the same checks. -/
def Obligations.InstructionChecks : Prop := ∀ (s : State) (e : Nat) (p : Pfx), s.hub.sysq = [] →
  ∀ (u v : Byte) (h : Half) (q : Word) (c : CByte) (d a b : BitVec 3) (l : PLogic) (m : MByte) (r : Disp) (g : BitVec 24) (w : BitVec 2)
    (z : Bool),
  let many : Bool := [1, 2, 4, 8].contains (m.km1.toNat + 1)
  let one : Bool := p.addr == .linear || m.km1.toNat == 0
  let n := entries p.wide
  let shift : Insn := { insn 1 1 (n + 1) n with wideOk := true }
  let shiftBy : Insn := { insnW p 2 1 1 1 with legal := decide (u.toNat ≤ 63) }
  let data (i : Insn) : Insn := { i with addrOk := true, legal := one }
  let cond (i : Insn) : Insn := { i with legal := decide (c.cond.toNat ≤ 13) }
  let special (i : Insn) : Insn := { i with legal := decide (u.toNat ≤ 0x1D) }
  let srv (i : Insn) : Insn := { i with svc := true }
  let str (i : Insn) : Insn := { i with repOk := true }
  let req (i : Insn) : Insn := { i with addrOk := true, legal := many && one }
  let rl : Nat := match r with
    | .short _ => 1
    | .long _ => 2
  (∀ ci ∈ ([(.nop e p, insn 1 1 0 0), (.dup e p, insnW p 1 1 1 2), (.drop e p, insnW p 1 1 1 0), (.swap e p, insnW p 1 1 2 2),
    (.over e p, insnW p 1 1 2 3), (.rot e p, insn 1 1 3 3), (.nip e p, insnW p 1 1 2 1),
    (.pick e p u, { insn 2 1 (u.toNat + 1) (u.toNat + 2) with legal := decide (u.toNat ≤ 15) }),
    (.lit8 e p u, insn 2 1 0 1), (.lit16 e p h, insn 3 1 0 1), (.lit32 e p q, insn 5 1 0 2), (.depth e p, insn 1 1 0 1),
    (.sext e p, insn 1 1 1 2), (.zext e p, insn 1 1 1 2)] : List (Instr × Insn)), s.checksOf ci.1 e p ci.2) ∧
  (∀ i ∈ ([.add e p, .sub e p, .adc e p, .sbc e p, .adds e p, .subs e p, .min e p, .max e p, .minu e p, .maxu e p, .and e p, .or e p,
    .xor e p] : List Instr), s.checksOf i e p (insnW p 1 1 2 1)) ∧
  (∀ i ∈ ([.neg e p, .abs e p, .not e p] : List Instr), s.checksOf i e p (insnW p 1 1 1 1)) ∧
  (∀ i ∈ ([.shl e p, .shr e p, .sar e p] : List Instr), s.checksOf i e p shift) ∧
  (∀ i ∈ ([.shli e p u, .shri e p u, .sari e p u] : List Instr), s.checksOf i e p shiftBy) ∧
  (∀ ci ∈ ([(.mul e p, { insn 1 (if p.wide then 3 else 2) (2 * n) 2 with wideOk := true }), (.mulu e p, insn 1 2 2 2),
    (.div e p, insn 1 18 2 2), (.divu e p, insn 1 18 2 2), (.divl e p, insn 1 34 3 2), (.divlu e p, insn 1 34 3 2),
    (.addi e p u, insnW p 2 1 1 1), (.cmp e p c, cond (insnW p 2 1 2 0)), (.tst e p d, insnW p 2 1 1 0), (.plog e p l, insn 3 1 0 0),
    (.pset e p d z, insn 2 1 0 0), (.pushp e p d, insn 2 1 0 1), (.popp e p d, insn 2 1 1 0), (.pflag e p c, cond (insn 2 1 0 0)),
    (.mfr e p u, special (insn 2 1 0 1)), (.mtr e p u, special (insn 2 1 1 0))] : List (Instr × Insn)), s.checksOf ci.1 e p ci.2) ∧
  (∀ ci ∈ ([(.br e p r, insn (1 + rl) 3 0 0), (.brl e p h, insn 3 3 0 0), (.bra e p g, insn 4 3 0 0), (.brla e p g, insn 4 3 0 0),
    (.bri e p, insn 1 3 2 0), (.ret e p, insn 1 3 0 0), (.loop e p u, insn 2 3 0 0), (.reti e p, insn 1 3 0 0),
    (.tdone e p u, { insn 2 3 0 0 with legal := decide (u.toNat ≤ 2), ends := true }),
    (.trap e p u, { insn 2 4 0 0 with legal := decide (u.toNat ≤ 127) }), (.brk e p, insn 1 4 0 0)] : List (Instr × Insn)),
    s.checksOf ci.1 e p ci.2) ∧
  (∀ ci ∈ ([(.ld e p m r, data (insn (2 + rl) (if m.km1.toNat + 1 ≤ 4 then 2 else 3) 0 (m.km1.toNat + 1))),
    (.st e p m r, data (insn (2 + rl) 1 (m.km1.toNat + 1) 0)),
    (.lea e p m v, { insn 3 1 0 1 with addrOk := true, legal := !m.inc && m.km1.toNat == 0 }), (.addb e p d v, { insn 3 1 0 0 with addrOk := true }),
    (.codewr e p, insn 1 1 3 0), (.flushi e p, insn 1 4 0 0), (.dmac e p a b, { srv (insn 2 1 0 0) with legal := a != b }),
    (.clracc e p, srv (insn 1 1 0 0)), (.rdacc e p, srv (insn 1 1 0 3)), (.rdaccs e p, srv (insn 1 1 0 2))] : List (Instr × Insn)),
    s.checksOf ci.1 e p ci.2) ∧
  (∀ ci ∈ ([(.post e p w m v, req (insn 3 1 (m.km1.toNat + 1) 0)), (.fetch e p w m v, req (insn 3 1 0 0)),
    (.ldr e p w m v, { insn 3 1 0 0 with addrOk := true, legal := m.km1.toNat == 3 && one }),
    (.stc e p w m v d, { insn 4 3 (m.km1.toNat + 1) 0 with addrOk := true, legal := [1, 2, 4].contains (m.km1.toNat + 1) && one }),
    (.collect e p w d, insn 2 2 0 0)] : List (Instr × Insn)), s.checksOf ci.1 e p ci.2) ∧
  (p.rep = false → ∀ ci ∈ ([(.cpyf e p w, str (insn 2 3 0 0)), (.movs e p, str (insn 1 2 0 0)), (.fills e p, str (insn 1 2 1 1)),
    (.cmps e p d, str (insn 2 2 0 0))] : List (Instr × Insn)), s.checksOf ci.1 e p ci.2)

/-- The stack, constants, predicates and special registers (R266, R270 to R272): what each instruction leaves of a stack of entries a, b, ...
with the top first, and of the predicates. A write to predicate 0, and to a special register that is read only, is discarded. -/
def Obligations.StackInstructions : Prop := ∀ (s : State) (e : Nat) (p : Pfx), s.hub.sysq = [] →
  let x := s.hub.eng e
  let n := entries p.wide
  let does := fun (c : Instr) (i : Insn) (y : Engine) => s.ready e p i → s.leaves c e (x.wentOn y e p i) s.mem
  let push := fun (l : List Half) => { x with stack := l ++ x.stack }
  (does (.nop e p) (insn 1 1 0 0) x) ∧
  (∀ a l, a.length = n → x.stack = a ++ l → does (.dup e p) (insnW p 1 1 1 2) { x with stack := a ++ a ++ l }) ∧
  (∀ a l, a.length = n → x.stack = a ++ l → does (.drop e p) (insnW p 1 1 1 0) { x with stack := l }) ∧
  (∀ a b l, a.length = n → b.length = n → x.stack = b ++ a ++ l → does (.swap e p) (insnW p 1 1 2 2) { x with stack := a ++ b ++ l }) ∧
  (∀ a b l, a.length = n → b.length = n → x.stack = b ++ a ++ l →
    does (.over e p) (insnW p 1 1 2 3) { x with stack := a ++ b ++ a ++ l }) ∧
  (∀ a b l, a.length = n → b.length = n → x.stack = b ++ a ++ l → does (.nip e p) (insnW p 1 1 2 1) { x with stack := b ++ l }) ∧
  (∀ a b c l, x.stack = c :: b :: a :: l → does (.rot e p) (insn 1 1 3 3) { x with stack := a :: c :: b :: l }) ∧
  (∀ u v, x.stack[u.toNat]? = some v →
    does (.pick e p u) { insn 2 1 (u.toNat + 1) (u.toNat + 2) with legal := decide (u.toNat ≤ 15) } (push [v])) ∧
  (∀ v, does (.lit8 e p v) (insn 2 1 0 1) (push [BitVec.ofInt 16 v.toInt])) ∧
  (∀ v, does (.lit16 e p v) (insn 3 1 0 1) (push [v])) ∧
  (∀ v, does (.lit32 e p v) (insn 5 1 0 2) (push [v.extractLsb' 16 16, v.extractLsb' 0 16])) ∧
  (does (.depth e p) (insn 1 1 0 1) (push [BitVec.ofNat 16 x.stack.length])) ∧
  (∀ a l, x.stack = a :: l → does (.sext e p) (insn 1 1 1 2) (push [if a.getLsbD 15 then 0xFFFF else 0])) ∧
  (does (.zext e p) (insn 1 1 1 2) (push [0])) ∧
  (∀ r : Byte, does (.mfr e p r) { insn 2 1 0 1 with legal := decide (r.toNat ≤ 0x1D) } (push [BitVec.ofNat 16 (x.special e r.toNat)])) ∧
  (∀ (r : Byte) v l, x.stack = v :: l →
    does (.mtr e p r) { insn 2 1 1 0 with legal := decide (r.toNat ≤ 0x1D) } (Engine.setSpecial { x with stack := l } e r.toNat v)) ∧
  (∀ d : BitVec 3, does (.pushp e p d) (insn 2 1 0 1) (push [if d = 0 ∨ x.pred.getLsbD d.toNat then 1 else 0])) ∧
  (∀ (d : BitVec 3) v l, x.stack = v :: l →
    does (.popp e p d) (insn 2 1 1 0) (Engine.setP { x with stack := l } d.toNat (decide (v ≠ 0)))) ∧
  (∀ (d : BitVec 3) v, does (.pset e p d v) (insn 2 1 0 0) (x.setP d.toNat v)) ∧
  (∀ l : PLogic, does (.plog e p l) (insn 3 1 0 0) (x.setP l.d.toNat (logicOf l.op.toNat (x.p l.x.toNat) (x.p l.y.toNat)))) ∧
  (∀ c : CByte, does (.pflag e p c) { insn 2 1 0 0 with legal := decide (c.cond.toNat ≤ 13) }
    (x.setP c.d.toNat (condition c.cond.toNat x.sr))) ∧
  (∀ d v, d < 8 → (x.setP d v).p d = (v || d == 0) ∧ ∀ k, k < 8 → k ≠ d → (x.setP d v).p k = x.p k) ∧
  (∀ a b, logicOf 0 a b = (a && b) ∧ logicOf 1 a b = (a || b) ∧ logicOf 2 a b = (a ^^ b) ∧ logicOf 3 a b = (a && !b)) ∧
  (∀ v, x.setSpecial e 0x17 v = x ∧ x.setSpecial e 0x1D v = x) ∧
  (∀ r v, r ≤ 0x13 ∨ 0x18 ≤ r ∧ r < 0x1C → r ≠ 0x10 → r ≠ 0x12 → (x.setSpecial e r v).special e r = v.toNat) ∧
  (∀ v k, (x.setSpecial e 0x14 v).sr.getLsbD k = if k < 4 ∨ k = 8 ∨ (k = 10 ∧ e = 72) then v.getLsbD k else x.sr.getLsbD k)

/-- Arithmetic, logic, shifts, multiply, divide and compare (R266, R267, R270, R272), on single values and under WIDE on pairs: sg reads a
value as signed, over says that the exact result is outside the range (V), and the flags are those of the entry of R267. A division by 0
traps; one that an interrupt falls due in is abandoned after some of its cycles, to start afresh (R252). -/
def Obligations.ArithmeticInstructions : Prop := ∀ (s : State) (e : Nat) (p : Pfx), s.hub.sysq = [] →
  let x := s.hub.eng e
  let w := widthOf p.wide
  let full : Nat := 2 ^ w
  let half : Int := 2 ^ (w - 1)
  let sg : Nat → Int := fun v => if (v : Int) < half then v else (v : Int) - full
  let over_ : Int → Bool := fun v => decide (v < -half ∨ half ≤ v)
  let low : Int → Nat := fun v => (v % (full : Int)).toNat
  let does := fun (c : Instr) (i : Insn) (y : Engine) => s.ready e p i → s.leaves c e (x.wentOn y e p i) s.mem
  let put := fun (r : Nat) (l : List Half) (sr : Half) => { x with stack := pushValue p.wide r l, sr := sr }
  let two := fun (c : Instr) (r : Nat → Nat → Nat) (sr : Nat → Nat → Half) =>
    ∀ a b l, a < full → b < full → x.stack = pushValue p.wide b (pushValue p.wide a l) → does c (insnW p 1 1 2 1) (put (r a b) l (sr a b))
  let logic := fun (c : Instr) (r : Nat → Nat → Nat) => two c r (fun a b => flagsZNV w (r a b) false x.sr)
  let one := fun (c : Instr) (i : Insn) (r : Nat → Nat) (sr : Nat → Half) =>
    ∀ a l, a < full → x.stack = pushValue p.wide a l → does c i (put (r a) l (sr a))
  let sat : Int → Nat := fun v => low (max (-half) (min (half - 1) v))
  let cy : Nat := (x.sr.getLsbD 0).toNat
  let exact := fun (r : Nat) (c : Bool) (v : Int) => flagsCZNV w r c (over_ v) x.sr
  let shl : Nat → Nat → Nat × Bool := fun a n => (a * 2 ^ n % full, if n < w then a.testBit (w - n) else a.testBit (n - 1))
  let shr : Nat → Nat → Nat × Bool := fun a n => (a / 2 ^ n, a.testBit (n - 1))
  let sar : Nat → Nat → Nat × Bool := fun a n => (low (sg a / 2 ^ n), if n ≤ w then a.testBit (n - 1) else a.testBit (w - 1))
  let out := fun (n : Nat) (r : Nat × Bool) => let f := flagsZNV w r.1 false x.sr
                                              if n = 0 then f else putBit f 0 r.2
  let shift := fun (c : Instr) (f : Nat → Nat → Nat × Bool) => ∀ a (k : Half) l, a < full → x.stack = k :: pushValue p.wide a l →
    does c { insn 1 1 (entries p.wide + 1) (entries p.wide) with wideOk := true }
      (put (f a (k.toNat % 64)).1 l (out (k.toNat % 64) (f a (k.toNat % 64))))
  let shiftBy := fun (c : Byte → Instr) (f : Nat → Nat → Nat × Bool) => ∀ u : Byte,
    one (c u) { insnW p 2 1 1 1 with legal := decide (u.toNat ≤ 63) } (fun a => (f a u.toNat).1) (fun a => out u.toNat (f a u.toNat))
  let product := fun (r : Nat) (l : List Half) => { x with stack := pushValue true r l, sr := flagsCZNV 32 r false false x.sr }
  let quotient := fun (q r : Int) (big : Bool) (l : List Half) =>
    { x with stack := BitVec.ofInt 16 r :: BitVec.ofInt 16 q :: l, sr := flagsCZNV 16 (q % 65536).toNat false big x.sr }
  (two (.add e p) (fun a b => (a + b) % full) (fun a b => exact ((a + b) % full) (decide (full ≤ a + b)) (sg a + sg b))) ∧
  (two (.sub e p) (fun a b => (a + full - b) % full) (fun a b => exact ((a + full - b) % full) (decide (b ≤ a)) (sg a - sg b))) ∧
  (two (.adc e p) (fun a b => (a + b + cy) % full)
    (fun a b => exact ((a + b + cy) % full) (decide (full ≤ a + b + cy)) (sg a + sg b + cy))) ∧
  (two (.sbc e p) (fun a b => (a + full - b + cy - 1) % full)
    (fun a b => exact ((a + full - b + cy - 1) % full) (decide (b + 1 ≤ a + cy)) (sg a - sg b - 1 + cy))) ∧
  (one (.neg e p) (insnW p 1 1 1 1) (fun a => (full - a) % full) (fun a => exact ((full - a) % full) (a == 0) (-sg a))) ∧
  (two (.adds e p) (fun a b => sat (sg a + sg b)) (fun a b => flagsZNV w (sat (sg a + sg b)) (over_ (sg a + sg b)) x.sr)) ∧
  (two (.subs e p) (fun a b => sat (sg a - sg b)) (fun a b => flagsZNV w (sat (sg a - sg b)) (over_ (sg a - sg b)) x.sr)) ∧
  (one (.abs e p) (insnW p 1 1 1 1) (fun a => sat |sg a|) (fun a => flagsZNV w (sat |sg a|) (over_ |sg a|) x.sr)) ∧
  (logic (.min e p) (fun a b => if sg b < sg a then b else a)) ∧
  (logic (.max e p) (fun a b => if sg a < sg b then b else a)) ∧
  (logic (.minu e p) (fun a b => if b < a then b else a)) ∧
  (logic (.maxu e p) (fun a b => if a < b then b else a)) ∧
  (logic (.and e p) (fun a b => a &&& b)) ∧ (logic (.or e p) (fun a b => a ||| b)) ∧ (logic (.xor e p) (fun a b => a ^^^ b)) ∧
  (one (.not e p) (insnW p 1 1 1 1) (fun a => full - 1 - a) (fun a => flagsZNV w (full - 1 - a) false x.sr)) ∧
  (∀ v : Byte, one (.addi e p v) (insnW p 2 1 1 1) (fun a => (a + low v.toInt) % full)
    (fun a => exact ((a + low v.toInt) % full) (decide (full ≤ a + low v.toInt)) (sg a + v.toInt))) ∧
  (shift (.shl e p) shl) ∧ (shift (.shr e p) shr) ∧ (shift (.sar e p) sar) ∧
  (shiftBy (.shli e p) shl) ∧ (shiftBy (.shri e p) shr) ∧ (shiftBy (.sari e p) sar) ∧
  (∀ a b l, a < full → b < full → x.stack = pushValue p.wide b (pushValue p.wide a l) →
    does (.mul e p) { insn 1 (if p.wide then 3 else 2) (2 * entries p.wide) 2 with wideOk := true }
      (product (sg a * sg b % 2 ^ 32).toNat l)) ∧
  (∀ (a b : Half) l, x.stack = b :: a :: l → does (.mulu e p) (insn 1 2 2 2) (product (a.toNat * b.toNat) l)) ∧
  (∀ (a b : Half) l, x.stack = b :: a :: l → b ≠ 0 → s.hub.interruptDue e = false → does (.div e p) (insn 1 18 2 2)
    (quotient (a.toInt.tdiv b.toInt) (a.toInt.tmod b.toInt) (decide (a.toInt.tdiv b.toInt = 32768)) l)) ∧
  (∀ (a b : Half) l, x.stack = b :: a :: l → b ≠ 0 → s.hub.interruptDue e = false → does (.divu e p) (insn 1 18 2 2)
    (quotient (a.toNat / b.toNat) (a.toNat % b.toNat) false l)) ∧
  (∀ (h a b : Half) l, x.stack = b :: h :: a :: l → b ≠ 0 → s.hub.interruptDue e = false → does (.divl e p) (insn 1 34 3 2)
    (let n : Int := (h ++ a : Word).toInt
     quotient (n.tdiv b.toInt) (n.tmod b.toInt) (decide (n.tdiv b.toInt < -32768 ∨ 32768 ≤ n.tdiv b.toInt)) l)) ∧
  (∀ (h a b : Half) l, x.stack = b :: h :: a :: l → b ≠ 0 → s.hub.interruptDue e = false → does (.divlu e p) (insn 1 34 3 2)
    (let n : Nat := (h ++ a : Word).toNat
     quotient (n / b.toNat) (n % b.toNat) (decide (65535 < n / b.toNat)) l)) ∧
  (∀ b l, x.stack = b :: l → b ≠ 0 → s.hub.interruptDue e = true → ∀ ci ∈ ([(.div e p, insn 1 18 2 2), (.divu e p, insn 1 18 2 2),
    (.divl e p, insn 1 34 3 2), (.divlu e p, insn 1 34 3 2)] : List (Instr × Insn)), s.ready e p ci.2 →
    ∃ t n, exec ci.1 s = .next t ∧ 1 ≤ n ∧ n < ci.2.cost ∧ t.hub.eng e = x.wentTo x n x.pc.toNat ∧ (∀ k, k ≠ e → t.hub.eng k = s.hub.eng k) ∧
      t = { s with hub := { s.hub with engines := t.hub.engines, free := t.hub.free } }) ∧
  (∀ l, x.stack = 0 :: l → ∀ ci ∈ ([(.div e p, insn 1 18 2 2), (.divu e p, insn 1 18 2 2), (.divl e p, insn 1 34 3 2),
    (.divlu e p, insn 1 34 3 2)] : List (Instr × Insn)), s.ready e p ci.2 → exec ci.1 s = .next (s.trapTo e 6 0).settle) ∧
  (∀ (c : CByte) a b l, a < full → b < full → x.stack = pushValue p.wide b (pushValue p.wide a l) →
    let f := exact ((a + full - b) % full) (decide (b ≤ a)) (sg a - sg b)
    does (.cmp e p c) { insnW p 2 1 2 0 with legal := decide (c.cond.toNat ≤ 13) }
      (Engine.setP { x with stack := l, sr := f } c.d.toNat (condition c.cond.toNat f))) ∧
  (∀ (d : BitVec 3) a l, a < full → x.stack = pushValue p.wide a l → does (.tst e p d) (insnW p 2 1 1 0)
    (Engine.setP { x with stack := l, sr := flagsZNV w a false x.sr } d.toNat (decide (a ≠ 0)))) ∧
  (∀ (v : Nat) (c o : Bool) (f : Half) k, (flagsZNV w v o f).getLsbD k = (if k = 1 then v == 0 else if k = 2 then v.testBit (w - 1)
    else if k = 3 then o else f.getLsbD k) ∧
    (flagsCZNV w v c o f).getLsbD k = (if k = 0 then c else (flagsZNV w v o f).getLsbD k))

/-- Control (R250, R256, R262, R272): branches, calls, returns, LOOP and RETI go to the addresses they name, reduced to code RAM; TDONE ends
the run and hands on OUT, or nothing (nothing either where the run is a vote's third opinion, R286); TRAP, BRK and an undefined opcode enter their vectors, or halt an engine that is in a handler. -/
def Obligations.ControlInstructions : Prop := ∀ (s : State) (e : Nat) (p : Pfx), s.hub.sysq = [] →
  let x := s.hub.eng e
  let size : Nat := if e = 72 then 0x40000 else 0x8000
  let goes := fun (c : Instr) (i : Insn) (y : Engine) (a : Nat) => s.ready e p i → s.leaves c e (x.wentTo y 3 (a % size)) s.mem
  let nx := fun (i : Insn) => nextPc e p i x.pc
  let rel := fun (i : Insn) (d : Int) => (((nx i : Int) + d) % size).toNat
  let enters := fun (c : Instr) (v info : Nat) =>
    (e < 72 → x.sr.getLsbD 9 = false → exec c s = .next (s.withHub
      ((s.hub.setFld (engReg e 0x18) 16 8 (min 255 (s.hub.fld (engReg e 0x18) 16 8 + 1))).setEng e (x.enter v info)))) ∧
    (e = 72 → x.sr.getLsbD 9 = false → exec c s = .next (s.withHub (s.hub.setEng e (x.enter v info)))) ∧
    (x.sr.getLsbD 9 = true → x.sbuf = none → x.run = none →
      ∃ t, exec c s = .next t ∧ (t.hub.eng e).st = .halted ∧ (t.hub.eng e).cause.toNat = v ∧ (t.hub.eng e).stack = x.stack)
  (∀ d : Byte, goes (.br e p (.short d)) (insn 2 3 0 0) x (rel (insn 2 3 0 0) d.toInt)) ∧
  (∀ d : Half, goes (.br e p (.long d)) (insn 3 3 0 0) x (rel (insn 3 3 0 0) d.toInt)) ∧
  (∀ d : Half, goes (.brl e p d) (insn 3 3 0 0) { x with lr := BitVec.ofNat 18 (nx (insn 3 3 0 0)) } (rel (insn 3 3 0 0) d.toInt)) ∧
  (∀ g, goes (.bra e p g) (insn 4 3 0 0) x g.toNat) ∧
  (∀ g, goes (.brla e p g) (insn 4 3 0 0) { x with lr := BitVec.ofNat 18 (nx (insn 4 3 0 0)) } g.toNat) ∧
  (∀ (h o : Half) l, x.stack = h :: o :: l → goes (.bri e p) (insn 1 3 2 0) { x with stack := l } (h.toNat * 65536 + o.toNat)) ∧
  (goes (.ret e p) (insn 1 3 0 0) x x.lr.toNat) ∧
  (∀ d : Byte, goes (.loop e p d) (insn 2 3 0 0) { x with rc := x.rc - 1 }
    (if x.rc = 1 then nx (insn 2 3 0 0) else rel (insn 2 3 0 0) d.toInt)) ∧
  (goes (.reti e p) (insn 1 3 0 0) x.returned x.epc.toNat) ∧
  (x.returned.sr.toNat % 16 = x.esr.toNat / 16 % 16 ∧ x.returned.sr.getLsbD 8 = x.esr.getLsbD 8 ∧ x.returned.sr.getLsbD 9 = false ∧
    x.returned.sr.getLsbD 10 = x.sr.getLsbD 10 ∧ x.returned.st = (if x.run.isSome then .task else .idle)) ∧
  (∀ u r, u ≤ 1 → x.run = some r → r.entry.third = false → s.hub.engHeld e = false → (s.hub.shd 3).live = none →
    s.ready e p { insn 2 3 0 0 with legal := true, ends := true } →
    ∃ t, exec (.tdone e p (BitVec.ofNat 8 u)) s = .next t ∧ (t.hub.eng e).st = .idle ∧ (t.hub.eng e).run = none ∧
      (t.hub.eng e).stack = x.stack ∧ (t.hub.eng e).pc.toNat = nx (insn 2 3 0 0) ∧ (∀ k, k ≠ e → t.hub.eng k = s.hub.eng k) ∧
      (let left := s.hub.flight.map (fun f => if f.sid = r.entry.sid ∧ f.seq = r.entry.seq then
        if u = 0 then { f with rcd := s.outRecord e, stage := .result } else { f with stage := .none } else f)
       t.hub.flight = (passSeven r.entry.sid left).1 ∧ t.hub.taps = s.hub.taps ++ (passSeven r.entry.sid left).2.flatMap (fun f =>
        f.taps.map (fun k => (k, f)))) ∧
      t.hub.fld (engReg e 0x18) 0 16 = min 65535 (s.hub.fld (engReg e 0x18) 0 16 + 1) ∧ t.mem = s.mem) ∧
  (∀ r, x.run = some r → r.entry.third = true → ∀ u, u ≤ 2 → s.ready e p { insn 2 3 0 0 with legal := true, ends := true } →
    ∃ t, exec (.tdone e p (BitVec.ofNat 8 u)) s = .next t ∧ (t.hub.eng e).run = none ∧ t.hub.flight = s.hub.flight ∧ t.hub.taps = s.hub.taps ∧
      t.mem = s.mem) ∧
  (∀ r, x.run = some r → r.entry.third = false → s.hub.engHeld e = false → (s.hub.shd 3).live = none → (s.hub.strm r.entry.sid).state = .running →
    s.ready e p { insn 2 3 0 0 with legal := true, ends := true } →
    ∃ t, exec (.tdone e p 2) s = .next t ∧ (t.hub.strm r.entry.sid).state = .fault) ∧
  (∀ u : Byte, s.ready e p { insn 2 4 0 0 with legal := decide (u.toNat ≤ 127) } → enters (.trap e p u) 13 u.toNat) ∧
  (s.ready e p (insn 1 4 0 0) → enters (.brk e p) 12 0) ∧
  (∀ k, k ≤ 3 → e ≤ 72 → x.st.runs = true → x.broken = false → x.left ≠ some 0 →
    enters (.undefinedOpcode e k) 2 (if k = 3 ∧ x.sr.getLsbD 10 = true then 0 else k)) ∧
  (∀ k, k ≤ 3 → e ≤ 72 → x.st.runs = true → x.broken = false → x.left = some 0 → enters (.undefinedOpcode e k) 11 0) ∧
  (∀ k, k ≤ 3 → e ≤ 72 → x.st.runs = true → x.broken = true →
    exec (.undefinedOpcode e k) s = exec (.nop e p) s) ∧
  (∀ k, x.st.runs = false → exec (.undefinedOpcode e k) s = .next s) ∧
  (∀ v k, v < 16 → k < 128 → (x.enter v k).epc = x.pc ∧ (x.enter v k).pc.toNat = 16 * v ∧
    (x.enter v k).esr.toNat = v + x.sr.toNat % 16 * 16 + (x.sr.getLsbD 8).toNat * 256 + k * 512 ∧ (x.enter v k).st = .handler)

/-- Addresses, loads, stores and the other instructions on RAM (R240 to R242, R266, R269, R272, R274 to R276): the effective address in the
linear, ring and bit-reverse modes, the advance of a base, what goes to and from data RAM, the traps, and RC elements under REP; with an interrupt due
FLUSHI is left after its second cycle and a REP after some of its elements, its PC at the REP while elements are left (R252). -/
def Obligations.MemoryInstructions : Prop := ∀ (s : State) (e : Nat) (p : Pfx), s.hub.sysq = [] →
  let x := s.hub.eng e
  let base := fun n => (tval 0 x.b n).toNat
  let len := fun n => if tval 0 x.ml n = 0 then 65536 else (tval 0 x.ml n).toNat
  let off := fun n => base n % len n
  let does := fun (c : Instr) (i : Insn) (y : Engine) (m : List Host.Cell) => s.ready e p i → s.leaves c e (x.wentOn y e p i) m
  let traps := fun (c : Instr) (i : Insn) (v info : Nat) => s.ready e p i → exec c s = .next (s.trapTo e v info).settle
  let drained := (s.drainStore e).mem
  let words := fun a k => (List.range k).map (fun i => s.dataWord e ((a + i) % 65536))
  let inRam := fun a k => e = 72 ∨ a + k ≤ 0x2000
  let stepped := { x with b := tset 0 (tset 0 x.b 4 (BitVec.ofNat 16 (base 4 + 1))) 5 (BitVec.ofNat 16 (base 5 + 1)) }
  let str := fun (i : Insn) => ({ i with repOk := true } : Insn)
  (∀ n (d : Int), n < 8 → x.ea n d .linear = ((base n + d) % 65536).toNat ∧
    x.ea n d .ring = (base n - off n + ((off n + d) % len n).toNat) % 65536 ∧
    (∀ k, len n = 2 ^ k → x.ea n d .brev = (base n - off n + reverseBits k ((off n + d) % len n).toNat) % 65536) ∧
    ((x.advance n d .linear).base n = ((base n + d) % 65536).toNat) ∧
    ((x.advance n d .ring).base n = (base n - off n + ((off n + d) % len n).toNat) % 65536) ∧
    (∀ j a, j ≠ n → (x.advance n d a).base j = x.base j)) ∧
  (∀ m (d : Disp), let n := m.n.toNat
    let k := m.km1.toNat + 1
    let mode := if k = 1 ∧ x.brf.getLsbD n then AddrMode.brev else if k = 1 then p.addr else .linear
    let v : Int := match d with
      | .short b => b.toInt
      | .long h => h.toInt
    let dl : Nat := match d with
      | .short _ => 1
      | .long _ => 2
    let ld : Insn := { insn (2 + dl) (if k ≤ 4 then 2 else 3) 0 k with addrOk := true, legal := countOk k p.addr }
    let st : Insn := { insn (2 + dl) 1 k 0 with addrOk := true, legal := countOk k p.addr }
    let a := x.ea n v mode
    let y := if m.inc then x.advance n k mode else x
    let bad := mode = .brev ∧ ∀ j, len n ≠ 2 ^ j
    (¬ bad → inRam a k → does (.ld e p m d) ld { y with stack := (words a k).reverse ++ x.stack } s.mem) ∧
    (bad ∨ ¬ inRam a k → traps (.ld e p m d) ld 5 n) ∧
    (¬ bad → inRam a k → does (.st e p m d) st
      { y with stack := x.stack.drop k, sbuf := some (a, (x.stack.take k).reverse) } drained) ∧
    (bad ∨ ¬ inRam a k → traps (.st e p m d) st 5 n)) ∧
  (∀ (m : MByte) (d : Byte), let n := m.n.toNat
    let mode := if x.brf.getLsbD n then AddrMode.brev else p.addr
    let i : Insn := { insn 3 1 0 1 with addrOk := true, legal := !m.inc && m.km1.toNat == 0 }
    (x.brevOk n mode = true → m.km1 = 0 → m.inc = false →
      does (.lea e p m d) i { x with stack := BitVec.ofNat 16 (x.ea n d.toInt mode) :: x.stack } s.mem) ∧
    (x.brevOk n mode = false → m.km1 = 0 → traps (.lea e p m d) i 5 n)) ∧
  (∀ (b : BitVec 3) (d : Byte), let mode := if x.brf.getLsbD b.toNat then AddrMode.brev else p.addr
    (x.brevOk b.toNat mode = true → does (.addb e p b d) { insn 3 1 0 0 with addrOk := true } (x.advance b.toNat d.toInt mode) s.mem) ∧
    (x.brevOk b.toNat mode = false → traps (.addb e p b d) { insn 3 1 0 0 with addrOk := true } 5 b.toNat)) ∧
  (∀ (b h o : Half) l, x.stack = b :: h :: o :: l → x.cbuf.length < 8 → does (.codewr e p) (insn 1 1 3 0)
    { x with stack := l, cbuf := x.cbuf ++ [((h.toNat * 65536 + o.toNat) % codeSize e, b.setWidth 8)] } s.mem) ∧
  (8 ≤ x.cbuf.length → traps (.codewr e p) (insn 1 1 3 0) 7 0) ∧
  (s.hub.interruptDue e = false → does (.flushi e p) (insn 1 4 0 0) { x with cbuf := [] }
    (x.cbuf.foldl (fun (t : State) w => t.store (codeAddr e w.1) [w.2]) s).mem) ∧
  (s.hub.interruptDue e = true → s.ready e p (insn 1 4 0 0) →
    s.leaves (.flushi e p) e (x.wentTo { x with cbuf := [] } 2 (nextPc e p (insn 1 4 0 0) x.pc))
      (x.cbuf.foldl (fun (t : State) w => t.store (codeAddr e w.1) [w.2]) s).mem) ∧
  (∀ a b : BitVec 3, a ≠ b → let i : Insn := { service 2 0 0 with legal := true }
    let ma := if x.brf.getLsbD a.toNat then AddrMode.brev else .ring
    let mb := if x.brf.getLsbD b.toNat then AddrMode.brev else .ring
    let ok := fun (n : Nat) (m : AddrMode) => x.brevOk n m = true ∧ inRam (x.ea n 0 m) 1
    (ok a.toNat ma → ok b.toNat mb → does (.dmac e p a b) i
      { (x.advance a.toNat 1 ma).advance b.toNat 1 mb with
        acc := x.acc + BitVec.ofInt 40 ((s.dataWord e (x.ea a.toNat 0 ma)).toInt * (s.dataWord e (x.ea b.toNat 0 mb)).toInt) } s.mem) ∧
    (¬ ok a.toNat ma → traps (.dmac e p a b) i 5 a.toNat) ∧
    (ok a.toNat ma → ¬ ok b.toNat mb → traps (.dmac e p a b) i 5 b.toNat)) ∧
  (does (.clracc e p) (service 1 0 0) { x with acc := 0 } s.mem) ∧
  (does (.rdacc e p) (service 1 0 3)
    { x with stack := [BitVec.ofInt 16 (x.acc.extractLsb' 32 8).toInt, x.acc.extractLsb' 16 16, x.acc.extractLsb' 0 16] ++ x.stack } s.mem) ∧
  (does (.rdaccs e p) (service 1 0 2)
    (let v : Int := max (-(2 ^ 31 - 1)) (min (2 ^ 31 - 1) x.acc.toInt)
     { x with stack := pushValue true (v % 2 ^ 32).toNat x.stack }) s.mem) ∧
  (p.rep = false → inRam (base 4) 1 → inRam (base 5) 1 →
    does (.movs e p) (str (insn 1 2 0 0)) { stepped with sbuf := some (base 5, [s.dataWord e (base 4)]) } drained) ∧
  (p.rep = false → inRam (base 5) 1 →
    does (.fills e p) (str (insn 1 2 1 1)) { stepped with sbuf := some (base 5, [x.stack.getD 0 0]) } drained) ∧
  (∀ d : BitVec 3, p.rep = false → inRam (base 4) 1 → inRam (base 5) 1 → does (.cmps e p d) (str (insn 2 2 0 0))
    (stepped.setP d.toNat (x.p d.toNat && decide (s.dataWord e (base 4) = s.dataWord e (base 5)))) s.mem) ∧
  (∀ ci ∈ ([(.movs e p, str (insn 1 2 0 0)), (.fills e p, str (insn 1 2 1 1)), (.cmps e p 1, str (insn 2 2 0 0))] : List (Instr × Insn)),
    p.rep = true → s.ready e p ci.2 → x.left = none → inRam (base 4) x.rc.toNat → inRam (base 5) x.rc.toNat → base 4 + x.rc.toNat ≤ 65536 →
    base 5 + x.rc.toNat ≤ 65536 →
    (s.hub.interruptDue e = true →
      ∃ t n, exec ci.1 s = .next t ∧ n ≤ x.rc.toNat ∧ (t.hub.eng e).rc.toNat = x.rc.toNat - n ∧ (t.hub.eng e).base 4 = (base 4 + n) % 65536 ∧
        (t.hub.eng e).base 5 = (base 5 + n) % 65536 ∧ (t.hub.eng e).pc.toNat = (if n < x.rc.toNat then x.pc.toNat else nextPc e p ci.2 x.pc)) ∧
    (s.hub.interruptDue e = false → ∃ t, exec ci.1 s = .next t ∧ (t.hub.eng e).rc = 0 ∧ (t.hub.eng e).base 4 = (base 4 + x.rc.toNat) % 65536 ∧
      (t.hub.eng e).base 5 = (base 5 + x.rc.toNat) % 65536 ∧ (t.hub.eng e).stack = x.stack ∧
      (t.hub.eng e).pc.toNat = nextPc e p ci.2 x.pc ∧
      (x.st = .task ∨ x.st = .handler → (t.hub.eng e).cycles = x.cycles + BitVec.ofNat 48 (2 + 2 * x.rc.toNat)) ∧
      (∀ k, k ≠ e → t.hub.eng k = s.hub.eng k) ∧ t = { s with mem := t.mem, hub := { s.hub with engines := t.hub.engines } }))

/-- Requests through a window (R244 to R248, R277): each waits in the queue of its engine for its target; a read takes its window's slot,
COLLECT the words that have come; LDR takes the reservation from every other engine, and STC ends its own and writes only if it held it; CPYF writes the
words of one group as one masked request. The writes of a vote's third opinion are captured and not issued (R286). -/
def Obligations.WindowInstructions : Prop := ∀ (s : State) (e w : Nat) (p : Pfx) (m : MByte) (d : Byte) (g : BitVec 3),
  s.hub.sysq = [] → w < 4 →
  let x := s.hub.eng e
  let k := m.km1.toNat + 1
  let v : BitVec 2 := BitVec.ofNat 2 w
  let traps := fun (c : Instr) (i : Insn) (a b : Nat) => s.ready e p i → exec c s = .next (s.trapTo e a b).settle
  let third := ∃ r, x.run = some r ∧ r.entry.third = true
  let lone := ∀ q, s.hub.pair = some q → q.1 ≠ e
  let asks := fun (c : Instr) (i : Insn) (y : Engine) (r : List EngReq) => s.ready e p i → ¬ third →
    ∃ t, exec c s = .next t ∧ t.hub.eng e = x.wentOn y e p i ∧ (∀ j, j ≠ e → t.hub.eng j = s.hub.eng j) ∧ (lone → t.hub.rp = s.hub.rp) ∧
      t = { s with hub := { s.hub with engines := t.hub.engines, rp := t.hub.rp, outq := s.hub.outq ++ r.map (fun q => (e, q)) } }
  let one : Bool := countOk k p.addr
  let post : Insn := { insn 3 1 k 0 with addrOk := true, legal := [1, 2, 4, 8].contains k && one }
  let fetch : Insn := { insn 3 1 0 0 with addrOk := true, legal := [1, 2, 4, 8].contains k && one }
  let ldr : Insn := { insn 3 1 0 0 with addrOk := true, legal := k == 4 && one }
  let stc : Insn := { insn 4 3 k 0 with addrOk := true, legal := [1, 2, 4].contains k && one }
  let collect := insn 2 2 0 0
  let full := 4 ≤ (s.hub.outq.filter (fun q => q.1 == e)).length
  let slot := tget x.slots w
  let taken := fun (y : Engine) (a : Nat) => { y with slots := tput y.slots w { addr := a, count := k, data := none, arrived := false, bad := false } }
  let words := (x.stack.take k).reverse.map some
  (∀ a y, x.access p m d.toInt = some (a, y) → a % 32768 % k = 0 →
    x.request p w m d = some ((tval 0 x.win w).toNat * 65536 + 2 * (a % 32768), y)) ∧
  (∀ a y, x.access p m d.toInt = some (a, y) → a % 32768 % k ≠ 0 → x.request p w m d = none) ∧
  (x.access p m d.toInt = none → x.request p w m d = none) ∧
  (x.request p w m d = none → traps (.post e p v m d) post 5 m.n.toNat ∧ traps (.fetch e p v m d) fetch 5 m.n.toNat ∧
    traps (.ldr e p v m d) ldr 5 m.n.toNat ∧ traps (.stc e p v m d g) stc 5 m.n.toNat) ∧
  (∀ a y, x.request p w m d = some (a, y) →
    (full → traps (.post e p v m d) post 8 4) ∧
    (¬ full → asks (.post e p v m d) post { y with stack := x.stack.drop k } [.write a words]) ∧
    (¬ full → third → s.ready e p post → ∃ t, exec (.post e p v m d) s = .next t ∧ t.hub.outq = s.hub.outq ∧
      t.hub.eng e = x.wentOn { y with stack := x.stack.drop k } e p post) ∧
    (slot.isSome = true → traps (.fetch e p v m d) fetch 8 w) ∧
    (slot = none → full → traps (.fetch e p v m d) fetch 8 4) ∧
    (slot = none → ¬ full → asks (.fetch e p v m d) fetch (taken y a) [.read w a k]) ∧
    (¬ inCommons a → traps (.ldr e p v m d) ldr 5 m.n.toNat ∧ traps (.stc e p v m d g) stc 5 m.n.toNat) ∧
    (inCommons a → slot.isSome = true → traps (.ldr e p v m d) ldr 8 w) ∧
    (inCommons a → slot = none → s.hub.outq = [] → (∀ j ∈ s.hub.engines, j.1 ≠ e → j.2.res ≠ some (a / 8 * 8)) →
      asks (.ldr e p v m d) ldr { taken y a with res := some (a / 8 * 8) } [.read w a 4]) ∧
    (inCommons a → slot = none → s.hub.outq = [] → s.ready e p ldr → ∃ t, exec (.ldr e p v m d) s = .next t ∧
      (t.hub.eng e).res = some (a / 8 * 8) ∧ ∀ j, j ≠ e → (t.hub.eng j).res ≠ some (a / 8 * 8)) ∧
    (inCommons a → x.res ≠ some (a / 8 * 8) →
      asks (.stc e p v m d g) stc (Engine.setP { y with stack := x.stack.drop k, res := none } g.toNat false) []) ∧
    (inCommons a → x.res = some (a / 8 * 8) → full → traps (.stc e p v m d g) stc 8 4) ∧
    (inCommons a → x.res = some (a / 8 * 8) → ¬ full →
      asks (.stc e p v m d g) stc (Engine.setP { y with stack := x.stack.drop k, res := none } g.toNat true) [.write a words])) ∧
  (slot = none ∨ (∃ q, slot = some q ∧ q.arrived = false) → asks (.collect e p v g) collect (x.setP g.toNat false) []) ∧
  (∀ q ws, slot = some q → q.arrived = true → q.bad = false → q.data = some ws → x.stack.length + q.count ≤ 16 →
    asks (.collect e p v g) collect (Engine.setP { x with slots := tdel x.slots w, stack := ws.reverse ++ x.stack } g.toNat true) []) ∧
  (∀ q, slot = some q → q.arrived = true → q.bad = false → 16 < x.stack.length + q.count →
    traps (.collect e p v g) collect 3 (x.stack.length + q.count - 16)) ∧
  (∀ q, slot = some q → q.arrived = true → q.bad = true → s.ready e p collect → x.sr.getLsbD 9 = false →
    ∃ t, exec (.collect e p v g) s = .next t ∧ tget (t.hub.eng e).slots w = none ∧ (t.hub.eng e).st = .handler ∧
      (t.hub.eng e).pc.toNat = 16 * 9) ∧
  (p.rep = false → e = 72 ∨ x.base 4 < 0x2000 → ¬ full → asks (.cpyf e p v) { insn 2 3 0 0 with repOk := true }
    { x with b := tset 0 (tset 0 x.b 4 (BitVec.ofNat 16 (x.base 4 + 1))) 5 (BitVec.ofNat 16 (x.base 5 + 1)) }
    [.write ((tval 0 x.win w).toNat * 65536 + 2 * (x.base 5 % 32768 / 8 * 8))
      ((List.range 8).map (fun i => if i = x.base 5 % 8 then some (s.dataWord e (x.base 4)) else none))]) ∧
  (p.rep = false → e = 72 ∨ x.base 4 < 0x2000 → full → traps (.cpyf e p v) { insn 2 3 0 0 with repOk := true } 8 4) ∧
  (let i : Insn := { insn 2 3 0 0 with repOk := true }
   let c := x.base 5 % 8
   let l := x.rc.toNat
   p.rep = true → 0 < l → c + l ≤ 8 → x.left = none → s.hub.interruptDue e = false → (e = 72 ∨ x.base 4 + l ≤ 0x2000) → x.base 4 + l ≤ 65536 → ¬ full →
    s.ready e p i → ¬ third →
    ∃ t, exec (.cpyf e p v) s = .next t ∧ (t.hub.eng e).rc = 0 ∧ (t.hub.eng e).pc.toNat = nextPc e p i x.pc ∧
      t.hub.outq = s.hub.outq ++ [(e, .write ((tval 0 x.win w).toNat * 65536 + 2 * (x.base 5 % 32768 / 8 * 8))
        ((List.range 8).map (fun j => if c ≤ j ∧ j < c + l then some (s.dataWord e (x.base 4 + j - c)) else none)))]) ∧
  (p.rep = true → x.rc = 0 → x.left = none → s.ready e p { insn 2 3 0 0 with repOk := true } → ∃ t, exec (.cpyf e p v) s = .next t ∧
    t.hub.outq = s.hub.outq ∧ t.mem = s.mem ∧ (t.hub.eng e).pc.toNat = nextPc e p (insn 2 3 0 0) x.pc ∧ (t.hub.eng e).stack = x.stack)

/-! ### Fabric, Layout Table, key store (R13, R22, R27 to R49, R245, R376 to R383) -/

/-- Accesses by fabric (R13, R22, R29 to R31, R36, R54, R223, R241, R246, R285): storage, a register block, an address nothing occupies, a blocked one; a
read that clears, a counter copied at its low word; a read issued once more after its reply failed parity, for the window that waits for it where one does;
words that fail parity, each at the consumer that finds it; the arrival of read data; and a mismatch of a shadow, which freezes the witness. -/
def Obligations.FabricCommands : Prop := ∀ (s : State) (b : Initiator) (a n : Nat) (v : Word), s.hub.sysq = [] → 1 ≤ n → n ≤ 4 →
  let sram := 0x01000000 ≤ a ∧ a + n ≤ 0x02000000
  let err := fun k => (if s.hub.reg 0x10048 = 0 then s.hub.setReg 0x1004C (BitVec.ofNat 32 a) else s.hub).setFld 0x10048 k 1 1
  let free := s.hub.blocked a = false ∨ b = .col
  let shown := fun (h : Hub) (w : Nat) => s.withHub { h with readData := BitVec.ofNat 128 w }
  let unread := 72 < initiatorNumber b ∨ s.hub.outq = [] ∧ (s.hub.eng (initiatorNumber b)).reading a = none
  (sram → exec (.registerWrite b a n v) s = .next (s.store a (bytesOf n v.toNat))) ∧
  (free → regionOf a = .unmapped → exec (.registerWrite b a n v) s = .next (s.withHub (err 0))) ∧
  (∀ l, free → regionOf a = .regs l → n < 4 → l.blk ≠ .layout → l.blk ≠ .eq → exec (.registerWrite b a n v) s = .next (s.withHub (err 1))) ∧
  (∀ l, free → regionOf a = .regs l → n < 4 → l.blk = .layout → exec (.registerWrite b a n v) s = .next (s.withHub ((err 1).flag ltErr 2 0))) ∧
  (∀ l, free → regionOf a = .regs l → n < 4 → l.blk = .eq → (l.off < 0x10 ∨ 0x20 ≤ l.off) →
    exec (.registerWrite b a n v) s = .next (s.withHub (err 1))) ∧
  (∀ l, free → regionOf a = .regs l → n < 4 → l.blk = .eq → 0x10 ≤ l.off → l.off < 0x20 →
    exec (.registerWrite b a n v) s = .next (s.withHub ((err 1).eqPush l.idx 16 0))) ∧
  (exec (.registerWrite b 0x10040 4 v) s = .next (s.withHub (((((s.hub.setFld 0x10040 0 7 (bits v 0 7)).setFld 0x10040 7 1
    (bits v 7 1)).setFld 0x10040 8 5 (bits v 8 5)).setFld 0x10040 16 4 (bits v 16 4))))) ∧
  (s.hub.blocked a = true → b ≠ .col → exec (.registerWrite b a n v) s = .next (s.withHub (s.hub.refuse a)) ∧
    exec (.rcRead b a n) s = .next ((s.withHub { s.hub.refuse a with readData := 0 }))) ∧
  (sram → exec (.rcRead b a n) s = .next (shown s.hub (ofBytes (s.load a n)))) ∧
  (free → regionOf a = .unmapped → exec (.rcRead b a n) s = .next (shown (err 0) 0)) ∧
  (exec (.rcRead b 0x10044 4) s = .next (shown (s.hub.setReg 0x10044 (s.hub.reg 0x10044 &&& 0xFFFF0000)) (s.hub.seen 0x10044).toNat)) ∧
  (∀ e, e < 72 → ∃ t, exec (.counterLowRead b (engReg e 0x10)) s = .next t ∧
    t.hub.readData.toNat = (s.hub.engView e).cycles.toNat % 2 ^ 32 ∧
    t = s.withHub { s.hub with hold := t.hub.hold, readData := t.hub.readData } ∧
    ∀ u, exec (.rcRead b (engReg e 0x14) 4) t = .next u → u.hub.readData.toNat = (s.hub.engView e).cycles.toNat / 2 ^ 32) ∧
  (unread → exec (.readReplyParityFail b ⟨a, n⟩ false) s = exec (.rcRead b a n) s) ∧
  (unread → ∃ t, exec (.readReplyParityFail b ⟨a, n⟩ true) s = .next t ∧ t.hub.readData = 0 ∧ t.hub.bit 0x10048 2 = true) ∧
  (∀ w q again, initiatorNumber b ≤ 72 → s.hub.outq = [] → (s.hub.eng (initiatorNumber b)).reading a = some (w, q) →
    ∃ t ws, exec (.readReplyParityFail b ⟨a, n⟩ again) s = .next t ∧
      tget (t.hub.eng (initiatorNumber b)).slots w = some { q with data := some ws, bad := again } ∧
      (again = true → t.hub.bit 0x10048 2 = true ∧ ∀ y ∈ ws, y = 0)) ∧
  (∀ c : ParitySite, c.word = .regWrite ∨ c.word = .other → exec (.fabricParityFail c) s = .next (s.withHub
    ((s.hub.setFld c.reg 0 16 (min 65535 (s.hub.fld c.reg 0 16 + 1))).health c.ty c.inst 0x10 (min 65535 (s.hub.fld c.reg 0 16 + 1))))) ∧
  (∀ (c : ParitySite) sid, c.word = .record sid → (0xC0000 ≤ c.reg ∧ c.reg < 0xD0000 ∨ 0xF0000 ≤ c.reg ∧ c.reg < 0x100000) →
    (s.hub.strm sid).fresh = false → sid < 256 →
    ∃ t, exec (.fabricParityFail c) s = .next t ∧ (t.hub.strm sid).gap = true ∧ t.mem = s.mem ∧
      t.hub.fld (ctxReg sid 0x38) 0 16 = min 65535 (s.hub.fld (ctxReg sid 0x38) 0 16 + 1)) ∧
  (∀ (c : ParitySite) sid f, c.word = .record sid → 0x80000 ≤ c.reg → c.reg < 0xC0000 → s.hub.oldest sid = some f →
    let left := dropFlight sid s.hub.flight
    ∃ t, exec (.fabricParityFail c) s = .next t ∧ t.mem = s.mem ∧
      ((∃ g ∈ left, g.sid = sid ∧ f.seq.toNat < g.seq.toNat) → t.hub.flight = (passSeven sid (flagNext sid f.seq left)).1) ∧
      ((∀ g ∈ left, g.sid = sid → g.seq.toNat ≤ f.seq.toNat) → t.hub.flight = (passSeven sid left).1 ∧
        ((s.hub.strm sid).fresh = false → (t.hub.strm sid).gap = true))) ∧
  (∀ c : ParitySite, c.word = .corrected → exec (.fabricParityFail c) s = .next (s.withHub
    { s.hub with corrected := tset 0 s.hub.corrected c.inst (tval 0 s.hub.corrected c.inst + 1) })) ∧
  (∀ (c : ParitySite) (k : Nat), c.word = .stage k → c.inst < 32 → exec (.fabricParityFail c) s = .next (s.withHub (s.hub.setEq c.inst
    { s.hub.eq_ c.inst with items := (s.hub.eq_ c.inst).items.modify k (fun y => { y with bad := true }) }))) ∧
  (∀ c : ParitySite, c.word = .fetch ∨ c.word = .load → c.inst ≤ 72 → (s.hub.eng c.inst).st.runs = true →
    exec (.fabricParityFail c) s = .next ((s.withHub (s.hub.setFld c.reg 0 16 (min 65535 (s.hub.fld c.reg 0 16 + 1)))).trapTo c.inst 10
      (if c.word = .load then 1 else 0)).settle) ∧
  (∀ c : ParitySite, c.word = .fetch ∨ c.word = .load → (s.hub.eng c.inst).st.runs = false → exec (.fabricParityFail c) s = .next s) ∧
  (∀ (e w : Nat) (bad : Bool), e ≤ 72 → w < 4 → s.hub.outq = [] →
    (tget (s.hub.eng e).slots w = none ∨ ∃ q, tget (s.hub.eng e).slots w = some q ∧ (q.arrived = true ∨ q.data = none)) →
    exec (.readDataArrival e (BitVec.ofNat 2 w) bad) s = .next s) ∧
  (∀ (e w : Nat) (q : WinSlot) (bad : Bool), e ≤ 72 → w < 4 → s.hub.outq = [] → tget (s.hub.eng e).slots w = some q → q.arrived = false →
    q.data.isSome = true → ∃ t, exec (.readDataArrival e (BitVec.ofNat 2 w) bad) s = .next t ∧
      t.hub.eng e = { s.hub.eng e with slots := tput (s.hub.eng e).slots w { q with arrived := true, bad := q.bad || bad } } ∧
      (bad = false → t.hub.regs = s.hub.regs) ∧ (bad = true → t.hub.bit 0x10048 2 = true) ∧ t.mem = s.mem) ∧
  (∀ (k : Nat) (g : BitVec 4), k < 4 → s.hub.outq = [] → (s.hub.shd k).live = none ∨ (s.hub.shd k).phase ≠ 2 →
    exec (.shadowMismatch k g) s = .next s) ∧
  (∀ (k m : Nat) (g : BitVec 4), k < 3 → (s.hub.shd k).live = some m → (s.hub.shd k).phase = 2 →
    exec (.shadowMismatch k g) s = .next (s.withHub
      (((s.hub.setShd k { s.hub.shd k with phase := 3, outs := [], smps := [], since := s.hub.now, wit := s.hub.witnessOf k m g.toNat }).setReg 0x100030
        (BitVec.ofNat 32 (k + m * 2 ^ 4 + g.toNat * 2 ^ 12))).setFld (0x100020 + 4 * k) 0 8
          (min 255 (s.hub.fld (0x100020 + 4 * k) 0 8 + 1))))) ∧
  (∀ (m : Nat) (g : BitVec 4), (s.hub.shd 3).live = some m → (s.hub.shd 3).phase = 2 → s.hub.outq = [] →
    ∃ t, exec (.shadowMismatch 3 g) s = .next t ∧ (t.hub.shd 3).phase = 3 ∧ (t.hub.shd 3).wit = (s.hub.shd 3).wit ∧
      (t.hub.shd 3).since = s.hub.now ∧ t.hub.reg 0x100030 = BitVec.ofNat 32 (3 + m * 2 ^ 4 + g.toNat * 2 ^ 12) ∧
      t.hub.fld 0x10002C 0 8 = min 255 (s.hub.fld 0x10002C 0 8 + 1))

/-- The Layout Table and the key store (R36 to R38, R47, R380, R383, R390): the table discards writes and swaps what was gathered while Mbonik
runs; the key store is programmed in BLANK alone, bits only rising; the anti-rollback value goes to the next free slot. -/
def Obligations.TableAndKeyCommands : Prop := ∀ (s : State) (b : Initiator) (a : Nat) (v : Word), s.hub.sysq = [] →
  let off := (a - 0x118000) / 4 * 4
  let inside := 0x118000 ≤ a ∧ a < 0x120000
  let word := fun o : Nat => BitVec.ofNat 32 (ofBytes (s.load (0x118000 + o) 4))
  (a < 0x1000 → exec (.layoutTableWrite b a v) s = .next (s.withHub (s.hub.setFld 0x10050 2 1 1))) ∧
  (0x1000 ≤ a → exec (.layoutTableWrite b a v) s = .next s) ∧
  (s.hub.lay.next = none ∨ s.hub.mbonik = false → exec .layoutTableSwap s = .next s) ∧
  (∀ f, s.hub.lay.next = some f → s.hub.mbonik = true → s.hub.pwr.state ≠ 4 →
    let g : Word := if s.hub.lay.gen = 0xFFFFFFFF then 1 else s.hub.lay.gen + 1
    exec .layoutTableSwap s = .next (State.sysStore (s.withHub { s.hub with
      lay := { s.hub.lay with gen := g, ts := s.hub.ts, facts := f, next := none } })
      (hubEvent 0x18 0 (BitVec.ofNat 40 g.toNat) s.hub.instant 0xFFFF))) ∧
  (∀ f, s.hub.lay.next = some f → s.hub.mbonik = true → s.hub.pwr.state = 4 → exec .layoutTableSwap s = .next (s.withHub { s.hub with
    lay := { s.hub.lay with gen := if s.hub.lay.gen = 0xFFFFFFFF then 1 else s.hub.lay.gen + 1, ts := s.hub.ts, facts := f, next := none } })) ∧
  (¬ inside → exec (.keyStoreWrite b a v) s = .next s) ∧
  (inside → 2 ≤ s.hub.lc.toNat → b ≠ .col → exec (.keyStoreWrite b a v) s = .next (s.withHub (s.hub.refuse a))) ∧
  (inside → s.hub.lc = 1 ∨ 2 ≤ s.hub.lc.toNat ∧ b = .col ∨ 0x300 ≤ off ∧ off < 0x310 ∧ s.hub.lc = 0 →
    exec (.keyStoreWrite b a v) s = .next (s.withHub (s.hub.flag secErr 3 0))) ∧
  (inside → s.hub.lc = 0 → off < 0x080 ∨ 0x0A0 ≤ off ∧ off < 0x0E0 ∨ 0x100 ≤ off ∧ off < 0x120 ∨ 0x200 ≤ off ∧ off < 0x280 →
    exec (.keyStoreWrite b a v) s = .next (s.store (0x118000 + off) (bytesOf 4 (word off ||| v).toNat))) ∧
  (inside → s.hub.lc = 0 → off = 0x080 → exec (.keyStoreWrite b a v) s =
    .next (s.store 0x118080 (bytesOf 4 (word 0x080 ||| (v &&& 0xF)).toNat))) ∧
  (∀ l, s.hub.sec.image = none → exec (.arbUpdate l) s = .next s) ∧
  (∀ l im, s.hub.sec.image = some im → s.hub.mbonik = false ∨ s.hub.sec.arbDue = false ∨ im.arb.toNat ≤ s.arbCounter →
    exec (.arbUpdate l) s = .next (s.withHub { s.hub with sec := { s.hub.sec with arbDue := false } })) ∧
  (∀ im k rest, s.hub.sec.image = some im → s.hub.mbonik = true → s.hub.sec.arbDue = true → s.arbCounter < im.arb.toNat →
    im.revoke = false → (List.range 16).filter (fun i => !s.arbUsed i) = k :: rest →
    exec (.arbUpdate [true]) s = .next { s with
      hub := { s.hub with sec := { s.hub.sec with arbDue := false } },
      mem := (s.store (0x118200 + 8 * k) (bytesOf 8 im.arb.toNat)).mem }) ∧
  (∀ im k, s.hub.sec.image = some im → s.hub.mbonik = true → s.hub.sec.arbDue = true → s.arbCounter < im.arb.toNat →
    im.revoke = false → (List.range 16).filter (fun i => !s.arbUsed i) = [k] →
    ∃ t, exec (.arbUpdate [false]) s = .next t ∧ t.mem = s.mem ∧ t.hub.sec.arbFull = true ∧ t.hub.sec.arbBad.getLsbD k = true ∧
      t.hub.bit 0x11007C 3 = true)

/-! ### Self-repair, ageing, power and clock (R26, R183, R278 to R317) -/

/-- Dwells, votes and the field-repair area (R281 to R292, R297), for every kind of unit and whatever a hold keeps. Which unit of a slice or context computes
wrongly, and whether OTP reads back, comes with the command; on an engine's run the third run decides what it agrees with. -/
def Obligations.RepairCommands : Prop := ∀ (s : State) (k : Nat), s.hub.sysq = [] → k < 4 →
  let x := s.hub.shd k
  let ty : Nat := if k = 3 then 0x50 else 0x10 + k
  let none_ : Shadow := { Shadow.init with
    prevLive := x.live.orElse (fun _ => x.prevLive), prevSpare := x.spare.orElse (fun _ => x.prevSpare) }
  let can := s.hub.mbonik = true ∧ s.hub.pwr.state ≤ 1
  let full := 64 ≤ s.hub.rp.otp.length
  let retire := fun p => otpEntry 3 ty p 0
  let held := x.phase = 3 ∧ s.hub.mbonik = true
  let decided := fun (n : Nat) (o : Opinion) => if k = 3 then s.hub.engOpinion (s.hub.physOf 0x50 n) o else o
  let count := fun (t : State) (l w : Nat) =>
    t.hub.fld (0x100020 + 4 * k) l w = min (2 ^ w - 1) (s.hub.fld (0x100020 + 4 * k) l w + 1)
  (s.hub.dwellUnits k = none → exec (.dwellStart k) s = .next s) ∧
  (∀ n p, s.hub.dwellUnits k = some (n, p) → exec (.dwellStart k) s = .next (s.withHub (s.hub.setShd k { Shadow.init with
    live := some n, spare := some p, phase := 1, since := s.hub.now,
    warmed := if k = 3 ∧ (s.hub.eng (s.hub.physOf 0x50 n)).st = .idle then 1 else 0 }))) ∧
  (s.hub.dwellOver k = false → exec (.dwellEnd k) s = .next s) ∧
  (s.hub.dwellOver k = true → k < 3 ∨ x.phase = 1 → exec (.dwellEnd k) s = .next (s.withHub (s.hub.setShd k none_))) ∧
  (∀ p, s.hub.dwellOver k = true → k = 3 → x.spare = some p → ∃ t, exec (.dwellEnd k) s = .next t ∧ t.hub.shd k = none_ ∧
    ∀ a, a < 0x04000000 + 0x10000 * p ∨ 0x04010000 + 0x10000 * p ≤ a → memGet t.mem a = memGet s.mem a) ∧
  ((s.hub.shd 3).phase ≠ 1 ∨ (s.hub.shd 3).live = none ∨ (s.hub.shd 3).spare = none → exec .shadowCopyDone s = .next s) ∧
  (∀ n p, (s.hub.shd 3).live = some n → (s.hub.shd 3).spare = some p → (s.hub.shd 3).phase = 1 → Memory.wf s.mem = true → p < 72 →
    s.hub.physOf 0x50 n < 72 → p ≠ s.hub.physOf 0x50 n →
    ∃ t, exec .shadowCopyDone s = .next t ∧ t.hub.shd 3 = { s.hub.shd 3 with phase := 2 } ∧
      (∀ o, o < 0x10000 → memGet t.mem (0x04000000 + 0x10000 * p + o) = memGet s.mem (0x04000000 + 0x10000 * s.hub.physOf 0x50 n + o)) ∧
      (∀ a, a < 0x04000000 + 0x10000 * p ∨ 0x04010000 + 0x10000 * p ≤ a → memGet t.mem a = memGet s.mem a)) ∧
  (∀ b, s.hub.rp.due = [] ∨ ¬ can → exec (.fieldRepairWrite b) s = .next s) ∧
  (∀ e l, s.hub.rp.due = e :: l → can → ¬ full →
    exec (.fieldRepairWrite true) s = .next (s.withHub { s.hub with rp := { s.hub.rp with due := l, otp := s.hub.rp.otp ++ [e] } }) ∧
    exec (.fieldRepairWrite false) s = .next (s.withHub
      (Hub.setFld { s.hub with rp := { s.hub.rp with otp := s.hub.rp.otp ++ [e ||| 0xF] } } 0x10007C 2 1 1))) ∧
  (∀ b e l, s.hub.rp.due = e :: l → can → full → exec (.fieldRepairWrite b) s = .next (s.withHub
    (({ s.hub with rp := { s.hub.rp with due := l, late := true } } : Hub).health 0x60 0 0x84 s.hub.rp.otp.length))) ∧
  (s.hub.wantsStealing = none → exec .schedulingChange s = .next s) ∧
  (∀ b, s.hub.wantsStealing = some b → exec .schedulingChange s = .next (s.withHub
    { s.hub with rp := { s.hub.rp with stealing := b }, lay := { s.hub.lay with changed := true } })) ∧
  (∃ t, exec .rpNext s = .next t ∧ t.hub.shd k = { x with next := true } ∧ t = s.withHub { s.hub with rp := t.hub.rp }) ∧
  (∀ o, x.phase ≠ 3 ∨ s.hub.mbonik = false ∨ x.live = none ∨ x.spare = none → exec (.vote k o) s = .next s) ∧
  (x.phase ≠ 3 ∨ x.live = none → exec (.voteTimeout k) s = .next s) ∧
  (∀ n w o, held → x.live = some n → x.spare = some w → decided n o = .live → s.hub.unitState ty w = 2 → w < physicalCount ty →
    ∃ t, exec (.vote k o) s = .next t ∧ t.hub.fld 0x100030 16 4 = 1 ∧ count t 16 8 ∧ t.hub.unitState ty w = 3 ∧
      t.hub.physOf ty n = s.hub.physOf ty n ∧ t.hub.shd k = none_ ∧ t.hub.rp.due = s.hub.rp.due ++ [retire w]) ∧
  (∀ n w o, held → x.live = some n → x.spare = some w → decided n o = .shadow → n < logicalCount ty → w ≠ s.hub.physOf ty n →
    ∃ t, exec (.vote k o) s = .next t ∧ t.hub.fld 0x100030 16 4 = 2 ∧ count t 8 8 ∧ t.hub.physOf ty n = w ∧
      t.hub.unitState ty w = 1 ∧ t.hub.unitState ty (s.hub.physOf ty n) = 3 ∧ t.hub.shd k = none_ ∧
      t.hub.rp.due = s.hub.rp.due ++ [retire (s.hub.physOf ty n)]) ∧
  (∀ n w, k < 3 → held → x.live = some n → x.spare = some w → w ≠ s.hub.physOf ty n →
    ∃ t, exec (.vote k .neither) s = .next t ∧ t.hub.fld 0x100030 16 4 = 3 ∧ count t 8 8 ∧ count t 16 8 ∧ t.hub.unitState ty w = 3 ∧
      t.hub.unitState ty (s.hub.physOf ty n) = 3 ∧ t.hub.shd k = none_) ∧
  (∀ n w o, k = 3 → held → x.live = some n → x.spare = some w → decided n o = .neither →
    ∃ t, exec (.vote k o) s = .next t ∧ t.hub.fld 0x100030 16 4 = 4 ∧ count t 24 4 ∧ t.hub.units = s.hub.units ∧ t.hub.shd k = none_ ∧
      t.hub.outq = s.hub.outq.filter (fun q => q.1 != s.hub.physOf 0x50 n)) ∧
  (∀ n, x.phase = 3 → x.live = some n →
    ∃ t, exec (.voteTimeout k) s = .next t ∧ t.hub.fld 0x100030 16 4 = 5 ∧ count t 28 4 ∧ t.hub.units = s.hub.units ∧
      t.hub.behind = s.hub.behind ∧ t.hub.shd k = none_)

/-- Monitors, the guard, the planner and the AVS handshake (R298 to R305, R433): what each sample, probe, cycle and edge of the handshake
leaves; the guard acts once on a sample; a cycle raises the voltage while slack is short, else lowers the engine clock, and undoes its last step once its gain
is no longer needed; the measured values come with the commands. -/
def Obligations.AgeingCommands : Prop := ∀ (s : State), s.hub.sysq = [] →
  let a := s.hub.age
  let with_ := fun (b : Ageing) => s.withHub { s.hub with age := b }
  let only := fun (t : State) => t = with_ t.hub.age
  let plan := fun (b : Ageing) (action : Nat) => hubEvent 0x19 0 (BitVec.ofNat 40 (b.plan + b.step * 2 ^ 8 + action * 2 ^ 12 +
    (b.m % 65536).toNat * 2 ^ 16 + b.limit * 2 ^ 32)) s.hub.instant 0xFFFF
  let low := fun (c : Nat) => a.lowOf c
  let tight := ∃ c, c < 32 ∧ low c < 25
  let still := a.vid = a.plan - s.hub.pwr.dropped
  let toward := if a.vid < a.plan - s.hub.pwr.dropped then a.vid + 1 else a.vid - 1
  let driven := { a with avs := 1, avsAt := s.hub.now, back := a.vid, vid := toward }
  (s.hub.pwr.state = 4 → ∀ x y, exec (.monitorSample x y) s = .next s) ∧
  (∀ (x : List (BitVec 16)) (y : List (BitVec 12)), s.hub.pwr.state ≠ 4 → x.length = 32 → y.length = 8 →
    ∃ t, exec (.monitorSample x y) s = .next t ∧ (∀ c, c < 32 → t.hub.age.slackOf c = (x.getD c 0).toInt ∧
      t.hub.age.lowOf c = (if a.fresh = true ∧ low c ≤ (x.getD c 0).toInt then low c else (x.getD c 0).toInt)) ∧
      (∀ i, i < 8 → t.hub.age.tempOf i = (y.getD i 0).toInt) ∧ t.hub.age.fresh = true ∧ t.hub.age.plan = a.plan ∧ t.hub.age.vid = a.vid ∧
      (a.hot = false → (∀ v ∈ y, v.toInt ≤ 600) → only t) ∧ (a.hot = false → (∃ v ∈ y, 600 < v.toInt) → t.hub.age.hot = true) ∧ t.mem = s.mem) ∧
  (∀ b (v : BitVec 10), b < 16 → exec (.vminProbe b v) s = .next (with_ { a with vmin := tput a.vmin b v.toNat })) ∧
  (∀ b (v : BitVec 10), 16 ≤ b → exec (.vminProbe b v) s = .next s) ∧
  (∃ t i, exec .thermalHistogramTick s = .next t ∧ i < 8 ∧ (∀ j, j < 8 → a.tempOf j ≤ a.tempOf i) ∧
    (let b := if a.tempOf i < 0 then 0 else min 15 ((a.tempOf i).toNat / 40 + 1)
     (tval 0 t.hub.age.hist b).toNat = min (2 ^ 32 - 1) ((tval 0 a.hist b).toNat + 1) ∧
       ∀ c, c ≠ b → tval 0 t.hub.age.hist c = tval 0 a.hist c) ∧ only t) ∧
  (∀ c, a.guardDue ≠ some c → exec (.guardStep c) s = .next s) ∧
  (∀ c, a.guardDue = some c → s.hub.pwr.state ≥ 3 ∨ a.fault = true ∨ 32 ≤ a.plan ∨ 32 ≤ c ∨ 10 ≤ a.slackOf c →
    exec (.guardStep c) s = .next (with_ { a with guardDue := none })) ∧
  (∀ c, a.guardDue = some c → s.hub.pwr.state < 3 → a.fault = false → a.plan < 32 → c < 32 → a.slackOf c < 10 →
    ∃ t, exec (.guardStep c) s = .next t ∧ t.hub.age.plan = a.plan + 1 ∧ t.hub.age.guarded = true ∧ t.hub.age.limit = c ∧
      t.hub.age.post = some 6 ∧ t.hub.age.guardDue = none ∧ t.hub.bit 0x100104 12 = true ∧ t.mem = s.mem) ∧
  (∀ l, s.hub.mbonik = false ∨ 3 ≤ s.hub.pwr.state → exec (.plannerCycle l) s = .next s) ∧
  (∀ l, s.hub.mbonik = true → s.hub.pwr.state < 3 → a.fresh = false →
    exec (.plannerCycle l) s = .next (with_ { a with since := s.hub.now, guarded := false })) ∧
  (∀ l, s.hub.mbonik = true → s.hub.pwr.state < 3 → a.fresh = true →
    ∃ t, exec (.plannerCycle l) s = .next t ∧ t.hub.age.fresh = false ∧ t.hub.age.since = s.hub.now ∧
      (s.hub.bit 0x100100 0 = false ∨ a.guarded = true → t.hub.age.plan = a.plan ∧ t.hub.age.step = a.step ∧ only t ∧
        ∃ c, c < 32 ∧ t.hub.age.limit = c ∧ t.hub.age.m = low c ∧ ∀ j, j < 32 → low c ≤ low j) ∧
      (s.hub.bit 0x100100 0 = true → a.guarded = false → tight → a.plan < 32 → a.fault = false →
        t.hub.age.plan = a.plan + 1 ∧ t.hub.age.post = some 1 ∧ t.hub.age.changedAt = s.hub.now ∧
        t.hub.age.steps.length = a.steps.length + 1 ∧ only t) ∧
      (s.hub.bit 0x100100 0 = true → a.guarded = false → (32 ≤ a.plan ∨ a.fault = true) →
        (∃ i, i ≤ 10 ∧ low i < 25 ∧ ∀ j, 10 < j → j < 32 → low i ≤ low j) → a.step < 3 → a.clock = none → s.hub.pwr.state ≤ 1 →
        t.hub.age.clock = some (a.step + 1, none) ∧ t.hub.age.changedAt = s.hub.now ∧ t.hub.age.steps.length = a.steps.length + 1 ∧ only t) ∧
      (∀ p g c, s.hub.bit 0x100100 0 = true → a.guarded = false → s.hub.shortBanks = [] → c < 32 → (∀ j, j < 32 → low c ≤ low j) → 25 ≤ low c →
        a.steps.getLast? = some p → p.volt = true → p.guard = false → p.gain = some g → 35 ≤ low c - g →
        a.changedAt + 600 * 64000000000 ≤ s.hub.now → a.fault = false →
        t.hub.age.plan = a.plan - 1 ∧ t.hub.age.post = some 2 ∧ t.hub.age.changedAt = s.hub.now ∧
        t.hub.age.steps.length + 1 = a.steps.length ∧ only t)) ∧
  (a.avs = 1 → exec .avsPgoodHigh s = .next (with_ { a with avs := 2, avsAt := s.hub.now })) ∧
  (a.avs ≠ 1 → exec .avsPgoodHigh s = .next s ∧ exec .avsFault s = .next s) ∧
  (a.avs ≠ 2 → exec .avsSettleEnd s = .next s) ∧
  (a.avs = 2 → still ∨ a.fault = true → a.post = none → exec .avsSettleEnd s = .next (with_ { a with avs := 0 })) ∧
  (∀ n, a.avs = 2 → still ∨ a.fault = true → a.post = some n → s.hub.pwr.state ≠ 4 →
    exec .avsSettleEnd s = .next (State.sysStore (with_ { a with avs := 0, post := none }) (plan a n))) ∧
  (∀ n, a.avs = 2 → still ∨ a.fault = true → a.post = some n → s.hub.pwr.state = 4 →
    exec .avsSettleEnd s = .next (with_ { a with avs := 0, post := none })) ∧
  (a.avs = 2 → a.fault = false → ¬ still → exec .avsSettleEnd s = .next (with_ driven)) ∧
  (a.avs = 1 → a.post = none → ∃ t, exec .avsFault s = .next t ∧
    t.hub.age = { a with vid := a.back, avs := 0, fault := true }) ∧
  (∀ n, a.avs = 1 → a.post = some n → ∃ t, exec .avsFault s = .next t ∧ t.hub.age.vid = a.back ∧ t.hub.age.fault = true ∧
    t.hub.age.avs = 0 ∧ t.hub.age.post = none ∧ t.hub.age.plan = a.back + s.hub.pwr.dropped) ∧
  (a.avs ≠ 0 ∨ still → exec .clrAvs s = .next (with_ { a with fault := false })) ∧
  (a.avs = 0 → ¬ still → exec .clrAvs s = .next (with_ { driven with fault := false })) ∧
  (a.relock = none → exec .engPllRelock s = .next s) ∧
  (∀ n, a.relock = some n → s.hub.mbonik = false → s.hub.pwr.state ≠ 4 →
    exec .engPllRelock s = .next (State.sysStore (with_ { a with relock := none }) (plan a n))) ∧
  (∀ n, a.relock = some n → ∃ t, exec .engPllRelock s = .next t ∧ t.hub.age.relock = none ∧ t.hub.age.step = a.step)

/-- The governor, wakes, entry and exit (R306 to R317): the target is the deepest state whose steps all pass; a wake holds a ceiling; entry
takes place once the target has stood for the dwell and nothing is waited for; exit restores the voltage first. -/
def Obligations.PowerCommands : Prop := ∀ (s : State), s.hub.sysq = [] →
  let p := s.hub.pwr
  let stop := s.hub.now + s.hub.fld 0x10104 16 16 * 64000000
  let woken := fun (h : Hub) (n : Nat) =>
    let g := h.setFld 0x10118 n 1 1
    s.withHub { g with pwr := { g.pwr with holds := g.pwr.holds.filter (fun x => x.1 != g.wakeCeil) ++ [(g.wakeCeil, stop)] } }
  let wakes := fun (n : Nat) (rise : Bool) => n < 4 ∧ s.hub.bit 0x1010C n = true ∧ s.hub.bit 0x1010C (4 + n) ≠ rise ∧ (rise && s.hub.supply.getLsbD 0) = false
  let linked := 3 ≤ p.state ∧ s.hub.bit 0x1010C 9 = true
  let a := s.hub.age
  let restoring := 3 ≤ p.state ∧ (p.dropped ≠ 0 ∨ a.vid ≠ a.plan ∧ a.fault = false ∨ a.avs ≠ 0)
  (∀ n b, ¬ wakes n b → exec (.wakePin n b) s = .next s) ∧
  (∀ n b, wakes n b → exec (.wakePin n b) s = .next (woken s.hub n)) ∧
  (¬ linked → exec .hostLinkWake s = .next s) ∧
  (linked → exec .hostLinkWake s = .next (woken s.hub 5)) ∧
  (s.hub.alarmDue = false → exec .alarm s = .next s) ∧
  (s.hub.alarmDue = true → exec .alarm s = .next (woken (s.hub.setFld 0x1010C 10 1 0) 6)) ∧
  (s.hub.angWakeDue = false → exec .angWake s = .next s) ∧
  (s.hub.angWakeDue = true → exec .angWake s = .next (woken { s.hub with ang := { s.hub.ang with wakeEdges := [] } } 7)) ∧
  (exec .wakeHoldExpire s = .next (s.withHub { s.hub with pwr := { p with holds := p.holds.filter (fun x => decide (s.hub.now < x.2)) } })) ∧
  (s.hub.mbonik = false → exec .governorEvaluate s = .next s) ∧
  (s.hub.mbonik = true → ∃ t, exec .governorEvaluate s = .next t ∧ t.hub.pwr.target ≤ 4 ∧ t.hub.pwr.state = p.state ∧
    (∀ n, 1 ≤ n → n ≤ t.hub.pwr.target → s.hub.blockOf n = 0) ∧
    (t.hub.pwr.target < 4 → s.hub.blockOf (t.hub.pwr.target + 1) ≠ 0 ∧ t.hub.pwr.block = BitVec.ofNat 3 (s.hub.blockOf (t.hub.pwr.target + 1))) ∧
    (t.hub.pwr.target ≤ p.state → t.hub.pwr.since = none) ∧
    (p.state < t.hub.pwr.target → t.hub.pwr.since = some (if t.hub.pwr.target = p.target then p.since.getD s.hub.now else s.hub.now)) ∧
    (p.entering = false → t.hub.pwr.entering = false) ∧ (p.entering = true → t.hub.pwr.entering = decide (t.hub.pwr.target = p.target)) ∧
    (t.hub.pwr.target = p.target ∨ p.entering = false → t = s.withHub { s.hub with pwr := t.hub.pwr }) ∧
    (t.hub.pwr.target ≠ p.target → p.entering = true → t.hub.fld 0x1011C 16 8 = min 255 (s.hub.fld 0x1011C 16 8 + 1)) ∧
    t = s.withHub { s.hub with pwr := t.hub.pwr, regs := t.hub.regs }) ∧
  (s.hub.entryDue = false → exec .powerEntry s = .next s) ∧
  (s.hub.entryDue = true → p.target = 1 → (∀ k ∈ s.hub.liveSids, (s.hub.strm k).state ≠ .draining) →
    exec .powerEntry s = .next (s.withHub { s.hub with pwr := { p with state := 1, since := none, entering := false } })) ∧
  (∀ k ∈ s.hub.liveSids, s.hub.entryDue = true → p.target = 1 → (s.hub.strm k).state = .draining → exec .powerEntry s = .next s) ∧
  (s.hub.entryDue = true → p.target ≠ 1 → s.hub.entryWaits p.target = true →
    exec .powerEntry s = .next (s.withHub { s.hub with pwr := { p with entering := true, enterAt := if p.entering then p.enterAt else s.hub.now } })) ∧
  (s.hub.entryDue = true → p.target ≠ 1 → s.hub.entryWaits p.target = false →
    ∃ t, exec .powerEntry s = .next t ∧ t.hub.pwr.state = p.target ∧ t.hub.pwr.entering = false ∧ t.hub.pwr.since = none ∧
      (3 ≤ p.target → p.state < 3 → t.hub.mbonik = false ∧ ∀ a, 0x01000000 ≤ a → a < 0x02000000 →
        (t.hub.bit 0x10108 (16 + (a - 0x01000000) / 0x100000) = false ∨ t.hub.bankOut.getLsbD ((a - 0x01000000) / 0x100000) = true) →
          memGet t.mem a = 0) ∧
      (3 ≤ p.target → t.hub.pwr.dropped = min (s.hub.fld 0x10104 8 3) a.plan ∧ t.hub.tap.copy.isSome = true)) ∧
  (s.hub.exitTo = none → exec .powerExit s = .next s) ∧
  (∀ n, s.hub.exitTo = some n → restoring → a.avs ≠ 0 ∨ a.fault = true ∨ a.vid = a.plan →
    exec .powerExit s = .next (s.withHub { s.hub with pwr := { p with dropped := 0 } })) ∧
  (∀ n, s.hub.exitTo = some n → restoring → a.avs = 0 → a.fault = false → a.vid ≠ a.plan →
    exec .powerExit s = .next (s.withHub { s.hub with
      pwr := { p with dropped := 0 },
      age := { a with back := a.vid, vid := if a.vid < a.plan then a.vid + 1 else a.vid - 1, avs := 1, avsAt := s.hub.now } })) ∧
  (∀ n, s.hub.exitTo = some n → ¬ restoring → ∃ t, exec .powerExit s = .next t ∧ t.hub.pwr.state = n ∧ t.hub.pwr.entering = false ∧ t.hub.pwr.since = none ∧
      (3 ≤ p.state → t.hub.mbonik = (s.hub.eng 72).st.runs ∧ t.hub.wdt = 0))

/-- Loss and return of the TIME clock, and the schedule epoch (R26, R94, R115, R183, R251, R258). -/
def Obligations.ClockCommands : Prop := ∀ (s : State), s.hub.sysq = [] →
  let tb := s.hub.tb
  let crank := s.hub.ang.crank.state
  (tb.holdover = true ∨ tb.onCrystal = true → exec .refclkLoss s = .next s) ∧
  (tb.holdover = false → tb.onCrystal = false → ∃ t, exec .refclkLoss s = .next t ∧ t.hub.tb = { tb with lock := false, holdover := true } ∧
    (∀ g, (t.hub.grp g).on = false) ∧
    (crank = .sync360 ∨ crank = .sync720 → t.hub.ang.crank.state = .lost ∧ t.hub.ang.crank.loss = 6)) ∧
  (tb.holdover = false ∨ s.hub.supply.getLsbD 2 = true → exec .timePllLock s = .next s) ∧
  (tb.holdover = true → s.hub.supply.getLsbD 2 = false → ∃ t, exec .timePllLock s = .next t ∧
    t.hub.tb = { tb with lock := true, holdover := false, beat := 0 }) ∧
  (s.hub.pwr.state = 4 → exec .scheduleEpoch s = .next s) ∧
  (s.hub.pwr.state ≠ 4 → ∃ t, exec .scheduleEpoch s = .next t ∧ t.hub.tb.epochs = tb.epochs + 1 ∧ t.hub.tb.epochDue = false) ∧
  (s.hub.pwr.state ≠ 4 → s.hub.mbonik = false → s.hub.schPend = false → (∀ k, k < 4 → (s.hub.shd k).phase = 0) →
    ∃ t, exec .scheduleEpoch s = .next t ∧ t.hub.pwr.samples = 0 ∧ t.hub.age = s.hub.age ∧
      (∀ e, e < 72 → (t.hub.eng e).st ≠ .retired → t.hub.bit (engReg e 0x1C) 1 = true) ∧ t.mem = s.mem)

/-! ### Ethernet and network time (R231, R356 to R375) -/

/-- Links, frames, MDIO and datagrams of a MAC (R231, R356 to R360, R370 to R373): what each event leaves of the link, the queue, the counters
and the MDIO registers, and the datagram that a ring's records become. -/
def Obligations.EthernetCommands : Prop := ∀ (s : State) (m : Nat), s.hub.sysq = [] → m < 2 →
  let x := s.hub.mac m
  let into := fun (y : Mac) => s.withHub (s.hub.setMac m y)
  let plus := fun (h : Hub) (o l w : Nat) => h.setFld (macReg m o) l w (min (2 ^ w - 1) (h.fld (macReg m o) l w + 1))
  let rails := s.hub.supply.getLsbD 1 = false ∧ s.hub.supply.getLsbD 4 = false
  let sends := s.hub.macOn m = true ∧ x.link = true ∧ x.pause = none
  let idle := s.hub.pwr.state = 1 ∧ s.hub.macOn m = true ∧ s.hub.bit (macReg m 0) 5 = true ∧ x.link = true ∧ x.frames = [] ∧ x.dg = none
  let lives := s.hub.macOn m = true ∧ x.link = true
  let cut := s.hub.setMac m { x with link := false, anDone := false, txLpi := false, rxLpi := false, pause := none, dg := none }
  let bad := fun f : RxFrame => f.fcsOk = false ∨ f.len < 64 ∨ 1522 < f.len
  (x.link = false → exec (.linkDown m) s = .next s) ∧
  (x.link = true → exec (.linkDown m) s = .next (s.withHub (if x.dg.isSome then plus cut 0x74 24 8 else cut))) ∧
  (∀ l, s.hub.macOn m = false ∨ ¬ rails → exec (.linkUp m l) s = .next s) ∧
  (∀ l, s.hub.macOn m = true → rails → s.hub.linkGood m l = true → exec (.linkUp m l) s = .next (into
    { x with link := true, anDone := decide (s.hub.macMode m = 0) && s.hub.bit (macReg m 0) 3 })) ∧
  (∀ l, s.hub.macOn m = true → rails → s.hub.linkGood m l = false → exec (.linkUp m l) s = exec (.linkDown m) s) ∧
  (idle → exec (.lpiEnter m) s = .next (into { x with txLpi := true })) ∧
  (¬ idle → exec (.lpiEnter m) s = .next s) ∧
  (exec (.pauseExpire m) s = .next (into { x with pause := none })) ∧
  (∀ c g, ¬ sends ∨ x.frames = [] ∧ x.dg = none → exec (.frameTransmit m c g) s = .next s) ∧
  (∀ c g d, sends → x.frames = [] → x.dg = some d →
    exec (.frameTransmit m c g) s = .next (s.withHub (plus (s.hub.setMac m { x with dg := none, left := s.hub.dgFrame m d.2 }) 0x70 0 16))) ∧
  (∀ l, ∃ head fcs, s.hub.dgFrame m l = head ++ l ++ fcs ∧ fcs = bytesOf 4 (crc32 (head ++ l)).toNat ∧
    head.length = 14 + (if s.hub.bit (macReg m 0x14) 31 then 4 else 0) + (if s.hub.bit (macReg m 0x44) 0 then 40 else 20) + 8 ∧
    head.take 6 = (bytesOf 6 (s.hub.fld (macReg m 0x34) 0 16 * 2 ^ 32 + s.hub.fld (macReg m 0x30) 0 32)).reverse) ∧
  (∀ c g l, sends → x.frames = .delayReq :: l → exec (.frameTransmit m c g) s = .next (s.withHub (plus (s.hub.setMac m
    { x with frames := l, txAt := BitVec.ofInt 36 (s.hub.txInstant m c g) }) 0x70 0 16))) ∧
  (∀ c g, x.frames.head? ≠ some .sync → exec (.oneStepSyncTx m c g) s = .next s) ∧
  (∀ c g l, sends → x.frames = .sync :: l → s.hub.tb.epochValid = true → exec (.oneStepSyncTx m c g) s = .next (s.withHub (plus (s.hub.setMac m
    { x with frames := l, txAt := BitVec.ofInt 36 (s.hub.txInstant m c g), sync := some (s.hub.sentSync m c g) }) 0x70 0 16))) ∧
  (∀ c g l, sends → x.frames = .sync :: l → s.hub.tb.epochValid = false → exec (.oneStepSyncTx m c g) s = .next (s.withHub (plus (plus (s.hub.setMac m
    { x with frames := l, txAt := BitVec.ofInt 36 (s.hub.txInstant m c g),
             sync := some { seconds := 0, ns := 0, corr := 0, trailer := 0, filled := false, noSum := decide (s.hub.fld 0xF7000 1 2 = 1) } }) 0x70 0 16) 0x74 16 8))) ∧
  (∀ f, ¬ lives → exec (.frameReceive m f) s = .next s) ∧
  (∀ f, lives → bad f → exec (.frameReceive m f) s = .next (s.withHub (plus s.hub 0x74 0 8))) ∧
  (∀ f q, lives → ¬ bad f → f.body = .pause q → s.hub.bit (macReg m 0) 4 = false →
    exec (.frameReceive m f) s = .next (s.withHub (plus s.hub 0x74 8 8))) ∧
  (∀ f q, lives → ¬ bad f → f.body = .pause q → s.hub.bit (macReg m 0) 4 = true →
    ∃ t, exec (.frameReceive m f) s = .next t ∧ (t.hub.mac m).frames = x.frames ∧
      (t.hub.mac m).rxAt = BitVec.ofInt 36 (s.hub.rxInstant m f.capTs f.capFrac) ∧
      (t.hub.mac m).pause = (if q = 0 then none else some (s.hub.now + if s.hub.macMode m = 1 then q.toNat * 131072 / 10 else q.toNat * 32768))) ∧
  (∀ f ip a b, lives → ¬ bad f → f.body = .arp ip a b → s.hub.macAccepts m f.dst = true → s.hub.bit (macReg m 0x14) 0 = true →
    ip = s.hub.reg (macReg m 0x10) → ∃ t, exec (.frameReceive m f) s = .next t ∧ (t.hub.mac m).frames = x.frames ++ [.arp a b] ∧
      t.hub.fld (macReg m 0x70) 16 16 = min 65535 (s.hub.fld (macReg m 0x70) 16 16 + 1)) ∧
  (∀ f k a d, lives → ¬ bad f → f.body = .ptp k a d → s.hub.macAccepts m f.dst = true → a ≠ 2 ∨ d ≠ s.hub.fld 0xF7000 8 8 →
    exec (.frameReceive m f) s = .next (s.withHub (plus (s.hub.setMac m { x with rxAt := BitVec.ofInt 36 (s.hub.rxInstant m f.capTs f.capFrac) }) 0x78 0 8))) ∧
  (∀ v, s.hub.ptp.busy = true → exec (.mdioGo v) s = .next (s.withHub (s.hub.setFld 0xF707C 2 1 1))) ∧
  (∀ v, s.hub.ptp.busy = false → s.hub.pwr.state ≤ 1 → bits v 0 3 ≤ 4 → ∃ t, exec (.mdioGo v) s = .next t ∧ t.hub.ptp =
    { s.hub.ptp with busy := true, reads := decide (bits v 0 3 = 1 ∨ bits v 0 3 = 4) } ∧ t.mem = s.mem) ∧
  (∀ d b, s.hub.ptp.busy = false → exec (.mdioDone d b) s = .next s) ∧
  (∀ d b, s.hub.ptp.busy = true → s.hub.ptp.reads = false →
    exec (.mdioDone d b) s = .next (s.withHub { s.hub with ptp := { s.hub.ptp with busy := false } })) ∧
  (∀ d b, s.hub.ptp.busy = true → s.hub.ptp.reads = true → exec (.mdioDone d b) s = .next (s.withHub
    (Hub.setReg { s.hub with ptp := { s.hub.ptp with busy := false, nophy := b } } 0xF7028 (if b then 0xFFFF else d.setWidth 32)))) ∧
  (∀ n, n < 128 → s.hub.ringOn n = true → (s.hub.ringMac n).isSome = true → s.hub.flushOver n = true → n ∉ s.hub.dgDue →
    exec (.flushMsExpire n) s = .next (s.withHub { s.hub with dgDue := s.hub.dgDue ++ [n] })) ∧
  (∀ n, 128 ≤ n ∨ s.hub.ringOn n = false ∨ s.hub.ringMac n = none ∨ s.hub.flushOver n = false ∨ n ∈ s.hub.dgDue →
    exec (.flushMsExpire n) s = .next s) ∧
  (∀ n l, n < 128 → s.hub.datagramMac n = none → exec (.datagramForm n l) s = .next s) ∧
  (∀ n, n < 128 → s.hub.datagramMac n = some m →
    let r := s.hub.ring n
    let k := min r.fill 88
    ∃ t, exec (.datagramForm n []) s = .next t ∧ t.mem = s.mem ∧ t.hub.ring n = { r with rd := r.rd + BitVec.ofNat 32 k } ∧
      t.hub.mac m = { x with
        dg := some (n, s.hub.datagramHead n k 0 ++ (List.range k).flatMap (fun i => s.load (s.hub.recordAddr n (r.rd + BitVec.ofNat 32 i)) 16)),
        served := n, ident := x.ident + 1, txLpi := false } ∧
      tval 0 t.hub.dgSeq n = (tval 0 s.hub.dgSeq n + 1) % 2 ^ 32)

/-- Roles and the servo of network time (R363, R367 to R369, R375): EN checks the roles and starts in ACQUIRE; a master and a slave send what
their role asks; a Sync gives the offset and the rate, and is ignored on a port without a role for it; loss of the grandmaster ends in HOLD. -/
def Obligations.PrecisionTimeCommands : Prop := ∀ (s : State) (m : Nat), s.hub.sysq = [] → m < 2 →
  let x := s.hub.mac m
  let p := s.hub.ptp
  let on := s.hub.bit 0xF7004 0
  let queue := fun f => s.withHub (s.hub.setMac m { x with frames := x.frames ++ [f], txLpi := false })
  let role := s.hub.fld 0xF7000 (16 + 2 * m) 2
  let asks := if s.hub.fld 0xF7000 0 1 = 1 then role = 1 else role ≠ 0
  let slave := [0, 1].find? (fun k => s.hub.fld 0xF7000 (16 + 2 * k) 2 == 1)
  let offset := fun y : SyncObs => (s.hub.tb.epochTotal : Int) * 65536 + s.hub.rxInstant m y.capTs y.capFrac * 4096 -
    ((y.originS * 1000000000 + y.originNs : Nat) * 65536 + y.corr + (y.mld.toNat : Int) * 4096)
  let ns := fun y : SyncObs => roundDiv (offset y) 65536
  let shown := fun y : SyncObs => BitVec.ofInt 32 (max (-2147483648) (min 2147483647 (ns y)))
  (exec (.ptpEnable false) s = .next (s.withHub { s.hub.setFld 0xF7004 0 1 0 with ptp := { p with state := 0 } })) ∧
  (on = true → exec (.ptpEnable true) s = .next s) ∧
  (on = false → s.hub.rolesOk = false → exec (.ptpEnable true) s = .next (s.withHub (s.hub.setFld 0xF707C 0 1 1))) ∧
  (on = false → s.hub.rolesOk = true → exec (.ptpEnable true) s = .next (s.withHub { s.hub.setFld 0xF7004 0 1 1 with
    ptp := { p with state := 1, rate := (1, 1), integ := 0, last := none, gm := none, syncAt := s.hub.now, annAt := s.hub.now } })) ∧
  (∀ a, s.hub.ptpSends m = false ∨ role ≠ 2 → exec (.ptpMasterTx m a) s = .next s) ∧
  (s.hub.ptpSends m = true → role = 2 → exec (.ptpMasterTx m false) s = .next (queue .sync)) ∧
  (s.hub.ptpSends m = true → role = 2 → slave = none → exec (.ptpMasterTx m true) s =
    .next (queue (.announce { gmId := s.hub.ownIdentity m, clockClass := 248, stepsRemoved := 0 }))) ∧
  (∀ g, s.hub.ptpSends m = true → role = 2 → slave ≠ none → p.gm = some g → exec (.ptpMasterTx m true) s =
    .next (queue (.announce { g with stepsRemoved := g.stepsRemoved + 1 }))) ∧
  (s.hub.ptpSends m = true → asks → exec (.delayRequestTx m) s = .next (queue .delayReq)) ∧
  (s.hub.ptpSends m = false ∨ ¬ asks → exec (.delayRequestTx m) s = .next s) ∧
  (∀ y, s.hub.ptpSends m = false ∨ role = 0 ∨ role = 2 → exec (.ptpSyncReceive m y) s = .next s) ∧
  (∀ y, s.hub.ptpSends m = true → role = 3 → exec (.ptpSyncReceive m y) s = .next (s.withHub { s.hub with ptp := { p with offset := shown y } })) ∧
  (∀ y, s.hub.ptpSends m = true → role = 1 → ∃ t, exec (.ptpSyncReceive m y) s = .next t ∧ t.hub.ptp.offset = shown y ∧ t.hub.ptp.mld = y.mld ∧
    t.hub.ptp.syncAt = s.hub.now ∧ (p.last = none → t.hub.ptp.rate = p.rate) ∧
    (s.hub.bit 0xF7008 0 = false ∨ p.state = 0 ∨ p.state = 3 → t = s.withHub { s.hub with ptp := t.hub.ptp } ∧ t.hub.ptp.state = p.state) ∧
    (s.hub.bit 0xF7008 0 = true → p.state = 2 → s.hub.fld 0xF7008 16 16 * 1000 * 65536 < (offset y).natAbs → t.hub.ptp.state = 3) ∧
    (s.hub.bit 0xF7008 0 = true → p.state = 2 → (offset y).natAbs ≤ s.hub.fld 0xF7008 16 16 * 1000 * 65536 → t.hub.ptp.state = 2)) ∧
  (slave = none ∨ on = false ∨ s.hub.mbonik = false ∨ p.state = 0 ∨ p.state = 4 → exec .servoHold s = .next s) ∧
  (slave ≠ none → on = true → s.hub.mbonik = true → p.state ≠ 0 → p.state ≠ 4 →
    ∃ t, exec .servoHold s = .next t ∧ t.hub.ptp = { p with state := 4 } ∧ t.mem = s.mem)

/-! ### Command packets and their transports (R318 to R336) -/

/-- Selections, packets, replies, the codes of the two-wire target and the management port (R321 to R335): what is accepted, discarded with
its count, taken, or ignored. -/
def Obligations.TransportCommands : Prop := ∀ (s : State) (k n : Nat), s.hub.sysq = [] → k ≤ 12 → n < 8 →
  let x := s.hub.xp k
  let z := s.hub.xp (n + 1)
  let hl := s.hub.hl
  let xb := fun (j l : Nat) (h : Hub) => h.setFld (0xC0104 + 8 * j) l 8 (min 255 (h.fld (0xC0104 + 8 * j) l 8 + 1))
  let quad := if (s.hub.xp 0).out = [] then s.hub.bit 0xC0000 0 else hl.quad
  let sel := fun (b : Bool) => { hl with sel := true, mode3 := b, quad := quad, ignored := true, writes := false, reads := false }
  let link := fun (y : HostLink) => s.withHub { s.hub with hl := y }
  let up := s.hub.pwr.state < 3 ∧ hl.ready = true
  let ended := s.hub.setTwt n { s.hub.twt n with tgt := none, freeAt := s.hub.now + s.hub.tbuf n }
  let served := fun (fr : TargetFrame) (bs : List Byte) => ended.setTwt n { ended.twt n with sent := bs ++ (if fr.pec then
    [crc8 ([BitVec.ofNat 8 (fr.first.toNat * 2), fr.code.getD 0, BitVec.ofNat 8 (fr.addr.toNat * 2 + 1)] ++ bs)] else []) }
  let calm := (s.hub.twt n).pending = false ∨ (s.hub.twt n).phase = .frame
  let waiting := (z.out.flatMap bytesOfWords).drop z.sent
  let block := BitVec.ofNat 8 (min 255 waiting.length) :: waiting.take (min 255 waiting.length)
  let whole := fun (w v : Half) (p : List Half) => (w >>> 8) ≠ 0 ∧ (v.toNat % 256) ≤ 250 ∧ p.length = v.toNat % 256 + 1
  let lone := x.inbuf = [] ∧ x.kept = [] ∧ s.hub.receives k = true
  (∀ b h, 3 ≤ s.hub.pwr.state → s.hub.bit 0x1010C 9 = false → exec (.hlSelect b h) s = .next (link (sel b))) ∧
  (∀ b h, s.hub.pwr.state < 3 → hl.ready = false → exec (.hlSelect b h) s = .next (s.withHub (xb 0 8 { s.hub with hl := sel b }))) ∧
  (∀ b h, up → quad = false → exec (.hlSelect b h) s = .next (link { sel b with ignored := false, writes := true, reads := true })) ∧
  (∀ b, up → quad = true → exec (.hlSelect b 1) s = .next (link { sel b with ignored := false, writes := true }) ∧
    exec (.hlSelect b 2) s = .next (link { sel b with ignored := false, reads := true })) ∧
  (∀ b h, up → quad = true → h ≠ 1 → h ≠ 2 → exec (.hlSelect b h) s = .next (s.withHub (xb 0 0 { s.hub with hl := sel b }))) ∧
  ((s.hub.xp 0).inbuf = [] → exec .hlDeselect s = .next (link { hl with sel := false })) ∧
  ((s.hub.xp 0).inbuf ≠ [] → ∃ t, exec .hlDeselect s = .next t ∧ t.hub.hl = { hl with sel := false } ∧
    t.hub.xp 0 = { s.hub.xp 0 with disc := true, inbuf := [] } ∧ t.hub.fld 0xC0100 8 8 = min 255 (s.hub.fld 0xC0100 8 8 + 1)) ∧
  (∀ ws, s.hub.receives k = false → exec (.packetReceive k ws) s = .next s) ∧
  (∀ w v p, whole w v p → lone → crc16 (w :: v :: p).dropLast ≠ p.getLastD 0 → ∃ t, exec (.packetReceive k (w :: v :: p)) s = .next t ∧
    t.hub.xp k = { x with disc := true } ∧ t.hub.fld (0xC0100 + 8 * k) 0 8 = min 255 (s.hub.fld (0xC0100 + 8 * k) 0 8 + 1) ∧ t.hub.hl = hl) ∧
  (∀ w v p, whole w v p → lone → crc16 (w :: v :: p).dropLast = p.getLastD 0 → x.tags.length < 16 → hiByte v ∉ x.tags →
    ∃ t, exec (.packetReceive k (w :: v :: p)) s = .next t ∧ (t.hub.xp k).tags = x.tags ++ [hiByte v] ∧ (t.hub.xp k).inbuf = [] ∧
      (t.hub.xp k).out = x.out ∧ t.hub.hl.accepted = hl.accepted ++ [{ t := k, words := w :: v :: p }] ∧
      t.hub.fld (0xC0104 + 8 * k) 24 8 = min 255 (s.hub.fld (0xC0104 + 8 * k) 24 8 + 1)) ∧
  (∀ w v p, whole w v p → lone → crc16 (w :: v :: p).dropLast = p.getLastD 0 → 16 ≤ x.tags.length ∨ hiByte v ∈ x.tags →
    ∃ t, exec (.packetReceive k (w :: v :: p)) s = .next t ∧ t.hub.xp k = { x with disc := true } ∧ t.hub.hl = hl) ∧
  (s.hub.replyReady k = false → exec (.replyTaken k) s = .next s) ∧
  (∀ r rest, s.hub.replyReady k = true → x.out = r :: rest → x.source = none → exec (.replyTaken k) s = .next (s.withHub (s.hub.setXp k
    { x with out := rest, tags := x.tags.erase (packetTag r), sent := 0 }))) ∧
  (∀ raw, s.hub.targetFrame n 0x10 false = none → exec (.cmdPut n raw) s = .next s) ∧
  (∀ raw f, s.hub.targetFrame n 0x10 false = some f → calm → hl.ready = false → exec (.cmdPut n raw) s = .next (s.withHub (xb (n + 1) 8 ended))) ∧
  (∀ raw f, s.hub.targetFrame n 0x10 false = some f → calm → hl.ready = true → exec (.cmdPut n (0 :: raw)) s = .next (s.withHub ended)) ∧
  (∀ b raw f, s.hub.targetFrame n 0x10 false = some f → calm → hl.ready = true → b ≠ 0 → writeEnd f (b :: raw) (b.toNat + 1) = .good →
    exec (.cmdPut n (b :: raw)) s = .next (s.withHub
      ((ended.setXp (n + 1) { z with putAt := s.hub.now }).inbound (n + 1) (raw.take b.toNat)))) ∧
  (∀ b raw f, s.hub.targetFrame n 0x10 false = some f → calm → hl.ready = true → b ≠ 0 → writeEnd f (b :: raw) (b.toNat + 1) = .pec →
    exec (.cmdPut n (b :: raw)) s = .next (s.withHub (ended.setFld (twReg n 0x30) 0 8 (min 255 (s.hub.fld (twReg n 0x30) 0 8 + 1))))) ∧
  (z.inbuf = [] → exec (.cmdPutTimeout n) s = .next s) ∧
  (z.inbuf ≠ [] → ∃ t, exec (.cmdPutTimeout n) s = .next t ∧ t.hub.xp (n + 1) = { z with disc := true, inbuf := [] } ∧
    t = s.withHub { s.hub with xps := t.hub.xps, regs := t.hub.regs }) ∧
  (∀ b, s.hub.targetFrame n 0x11 true = none → exec (.rspGet n b) s = .next s) ∧
  (∀ f, s.hub.targetFrame n 0x11 true = some f → calm → exec (.rspGet n false) s = .next (s.withHub (served f block))) ∧
  (∀ f, s.hub.targetFrame n 0x11 true = some f → calm → ∃ t, exec (.rspGet n true) s = .next t ∧ t.hub.twt n = (served f block).twt n) ∧
  (∀ f r, s.hub.targetFrame n 0x11 true = some f → z.out = [r] → z.sent = 0 → z.source = none → 2 * r.length ≤ 255 →
    ∃ t, exec (.rspGet n true) s = .next t ∧ (t.hub.xp (n + 1)).out = [] ∧ (t.hub.xp (n + 1)).tags = z.tags.erase (packetTag r)) ∧
  (s.hub.targetFrame n 0x20 true = none → exec (.hubStatus n) s = .next s) ∧
  (∀ f, s.hub.targetFrame n 0x20 true = some f → calm → exec (.hubStatus n) s = .next (s.withHub { (served f [s.hub.statusByte (n + 1)]).setXp (n + 1) { z with disc := false } with
    readData := (s.hub.statusByte (n + 1)).setWidth 128 })) ∧
  (s.hub.targetFrame n 0x21 true = none → exec (.eqPeek n) s = .next s) ∧
  (∀ f, s.hub.targetFrame n 0x21 true = some f → calm →
    exec (.eqPeek n) s = .next (s.withHub { served f (bytesOf 16 f.item.toNat) with readData := f.item })) ∧
  (∀ raw, s.hub.targetFrame n 0x22 false = none → exec (.twLtolSet n raw) s = .next s) ∧
  (∀ a b f, s.hub.targetFrame n 0x22 false = some f → calm → f.pec = false →
    exec (.twLtolSet n [a, b]) s = .next (s.withHub (ended.setFld 0x10100 0 16 (a.toNat + b.toNat * 256)))) ∧
  (∀ c f code, (∃ raw b, c = Instr.cmdPut n raw ∧ code = (0x10, false) ∨ c = .rspGet n b ∧ code = (0x11, true) ∨ c = .hubStatus n ∧ code = (0x20, true) ∨
      c = .eqPeek n ∧ code = (0x21, true) ∨ c = .twLtolSet n raw ∧ code = (0x22, false)) → s.hub.targetFrame n code.1 code.2 = some f → ¬ calm →
    ∃ t, exec c s = .next t ∧ (t.hub.twt n).tgt = none ∧ (t.hub.twt n).pending = false) ∧
  (∀ m d, m < 2 → s.hub.isManaged m d = false ∨ s.hub.macOn m = false ∨ (s.hub.mac m).link = false → exec (.mgmtDatagram m d) s = .next s) ∧
  (∀ m d, m < 2 → s.hub.isManaged m d = true → s.hub.macOn m = true → (s.hub.mac m).link = true →
    (d.fragment = true → exec (.mgmtDatagram m d) s = .next (s.withHub (s.hub.setFld 0xC0054 16 8 (min 255 (s.hub.fld 0xC0054 16 8 + 1))))) ∧
    (d.fragment = false → s.hub.slotOf d = none →
      exec (.mgmtDatagram m d) s = .next (s.withHub (s.hub.setFld 0xC0054 8 8 (min 255 (s.hub.fld 0xC0054 8 8 + 1))))) ∧
    (∀ t, d.fragment = false → s.hub.slotOf d = some t → (s.hub.xp t).source.isSome = true →
      exec (.mgmtDatagram m d) s = .next (s.withHub (((s.hub.setXp t { s.hub.xp t with source := some (d.v6, d.srcIp, d.srcPort, m), inbuf := [] }).inbound
        t d.bytes).incomplete t)))) ∧
  (∀ j, j < 4 → (s.hub.xp (9 + j)).tags = [] → exec (.udpSlotExpire j) s = .next (s.withHub (s.hub.setXp (9 + j) Transport.init))) ∧
  (∀ j, 4 ≤ j ∨ (s.hub.xp (9 + j)).tags ≠ [] → exec (.udpSlotExpire j) s = .next s)

/-! ### Command packets (R318 to R355) -/

/-- The checks of R340 in their order, with opcode and parameter count, for every packet command: reserved FLAGS (status 3), a wrong count
(2), a group the transport may not use (5), VALE (6); a refused packet changes nothing but its tag and its reply. While Mbonik does not
serve the transport nothing happens. A reply is the opcode, status, tag, count, words and CRC of R318. -/
def Obligations.PacketChecks : Prop := ∀ (s : State) (p : Pkt) (b : Bool) (l : List UnitId), s.hub.sysq = [] → s.hub.hl.stopping = none →
  let n := p.params.length
  let count : Bool := decide (3 ≤ n) && n == 3 + 2 * pword p 2
  let begun := fun op => s.hub.begun op p
  let refuses := fun (op st d : Nat) => s.withHub ((begun op).formReply op p st [0xFFFF, BitVec.ofNat 16 d])
  let served := s.hub.serves p = true
  let plain := p.flags >>> 1 = 0
  (∀ e ∈ ([(.ping p, 0x01, n == 0), (.tableRead p, 0x02, n == 2), (.reset p, 0x03, n == 1), (.resetCause p, 0x04, n == 0),
    (.irqStatus p, 0x05, n == 0), (.sysRead p, 0x06, n == 3), (.sysWrite p, 0x07, count), (.deviceId p, 0x08, n == 0),
    (.ctxRead p, 0x10, n == 3), (.ctxWrite p, 0x11, count), (.streamStart p, 0x12, n == 1), (.streamStop p, 0x13, n == 2),
    (.streamStates p, 0x14, n == 0), (.bankRead p, 0x20, n == 3), (.bankWrite p, 0x21, count), (.syncCommand p, 0x22, n == 0),
    (.schRead p, 0x30, n == 3), (.schWrite p, 0x31, count), (.kick p, 0x32, n == 1), (.probeStates p, 0x33, n == 0),
    (.recRead p, 0x40, n == 3), (.recWrite p, 0x41, count), (.eqPop p, 0x42, n == 2), (.eqPost p, 0x43, n == 9),
    (.ringRead p, 0x50, n == 3), (.ringWrite p, 0x51, count), (.ringTake p, 0x52, n == 2), (.tnRead p, 0x60, n == 3),
    (.tnWrite p, 0x61, count)] ++ [(.timeNow p, 0x62, n == 0), (.epochSet p, 0x63, n == 6), (.tincSet p, 0x64, n == 3),
    (.ltolSet p, 0x70, n == 1), (.pwrRead p, 0x71, n == 3), (.pwrWrite p, 0x72, count), (.hltRead p, 0x80, n == 3),
    (.hltWrite p, 0x81, count), (.ageReport p, 0x82, n == 0), (.retire p, 0x83, n == 2), (.retest p b, 0x84, n == 1),
    (.selftest p l, 0x85, n == 1), (.secStatus p, 0x90, n == 0), (.dbgChallenge p, 0x91, n == 0), (.dbgResponse p, 0x92, n == 32),
    (.dbgClose p, 0x93, n == 0), (.lifecycleSet p b, 0x94, n == 2), (.fwInfo p, 0xA0, n == 0),
    (.fwStage p b, 0xA1, decide (3 ≤ n ∧ n ≤ 242)), (.fwCommit p b, 0xA2, n == 2), (.taskStage p, 0xA3, decide (2 ≤ n ∧ n ≤ 241)),
    (.taskInstall p, 0xA4, n == 37), (.taskRemove p, 0xA5, n == 1), (.engRead p, 0xA6, n == 3), (.memRead p, 0xB0, n == 3),
    (.memWrite p, 0xB1, count)] : List (Instr × Nat × Bool)),
    (¬ served → exec e.1 s = .next s) ∧
    (served → ¬ plain → exec e.1 s = .next (refuses e.2.1 3 0)) ∧
    (served → plain → e.2.2 = false → exec e.1 s = .next (refuses e.2.1 2 0)) ∧
    (∀ d, served → plain → e.2.2 = true → s.hub.denied e.2.1 p.t = some d → exec e.1 s = .next (refuses e.2.1 5 d)) ∧
    (served → plain → e.2.2 = true → s.hub.denied e.2.1 p.t = none → s.hub.wrongPower e.2.1 p = true →
      exec e.1 s = .next (refuses e.2.1 6 0))) ∧
  (∀ op : Byte, op = 0 ∨ assigned op.toNat = true ∨ ¬ served → exec (.unknownOpcode op p) s = .next s) ∧
  (∀ op : Byte, op ≠ 0 → assigned op.toNat = false → served → exec (.unknownOpcode op p) s = .next (refuses op.toNat 1 0)) ∧
  (∀ op st ws, ws.length < 256 → ((begun op).formReply op p st ws).xp p.t = { (begun op).xp p.t with out := ((begun op).xp p.t).out ++
    [let m : List Half := (BitVec.ofNat 8 op ++ BitVec.ofNat 8 st) :: (p.tag ++ BitVec.ofNat 8 ws.length) :: ws
     m ++ [crc16 m]] }) ∧
  (∀ op, p.tag ∈ ((begun op).xp p.t).tags)

/-- What packets of the groups from system to power, and of register access, do once they have passed the checks (R341, R344 to R351, R355):
bad parameters are refused by their word; registers are read and written in ascending order; the other commands act as the registers of
their block would, and answer with its state. -/
def Obligations.PacketEffects : Prop := ∀ (s : State) (p : Pkt), s.hub.sysq = [] →
  let n := p.params.length
  let w := fun i => pword p i
  let passes := fun op => s.hub.serves p = true ∧ p.flags >>> 1 = 0 ∧ s.hub.denied op p.t = none ∧ s.hub.wrongPower op p = false
  let b := fun op => s.withHub (s.hub.begun op p)
  let ok := fun (c : Instr) (op : Nat) (u : State) (ws : List Half) => exec c s = .next (State.answered op p (.ok u ws)).settle
  let bad := fun (c : Instr) (op st r d : Nat) => exec c s = .next (State.answered op p (.bad (b op) st r d)).settle
  let onHub := fun (op : Nat) (f : Hub → Hub) => (b op).withHub (f (b op).hub)
  let sid := w 0
  let stream := sid ≠ 0 ∧ sid ≤ 255
  (passes 0x01 → n = 0 → ok (.ping p) 0x01 (b 0x01)
    [((s.hub.sec.image.map (fun i => i.version)).getD 0), ((b 0x01).hub.statusByte p.t).setWidth 16]) ∧
  (passes 0x02 → n = 2 → (2047 < w 0 → bad (.tableRead p) 0x02 4 0 0) ∧
    (w 0 ≤ 2047 → w 1 = 0 ∨ 246 < w 1 ∨ 2048 < w 0 + w 1 → bad (.tableRead p) 0x02 4 1 0) ∧
    (w 0 ≤ 2047 → 1 ≤ w 1 → w 1 ≤ 246 → w 0 + w 1 ≤ 2048 → ok (.tableRead p) 0x02 (b 0x02) (half2 s.hub.lay.gen ++
      (List.range (w 1)).map (fun i => BitVec.ofNat 16 ((s.hub.layoutWord ((w 0 + i) / 2 * 4)).toNat / 2 ^ (16 * ((w 0 + i) % 2))))))) ∧
  (passes 0x03 → n = 1 → (w 0 ≠ 0xA55A → bad (.reset p) 0x03 4 0 0) ∧ (w 0 = 0xA55A → ok (.reset p) 0x03 (onHub 0x03 (fun h =>
    { h with hl := { h.hl with resetAt := some (p.t, h.now), resetNow := p.flags.getLsbD 0 } })) [])) ∧
  (passes 0x04 → n = 0 → ok (.resetCause p) 0x04 (b 0x04) [BitVec.ofNat 16 (s.hub.fld 0x10060 0 3)]) ∧
  (passes 0x05 → n = 0 → ok (.irqStatus p) 0x05 (b 0x05) (BitVec.ofNat 16 (b 0x05).hub.irqSources ::
    [0x7F000, 0x7F004, 0x7F008, 0x7F00C, 0xEF000, 0xEF004, 0xEF008, 0xEF00C].flatMap (fun a => half2 (s.hub.reg a)))) ∧
  (passes 0x08 → n = 0 → ok (.deviceId p) 0x08 (b 0x08) (halves 8 Config.uniqueId.toNat ++ half2 0x12550C5F ++
    [BitVec.ofNat 16 (0xA1 + s.hub.lc.toNat * 256 + s.hub.sec.dbg.toNat * 4096)])) ∧
  (passes 0x12 → n = 1 → (¬ stream → bad (.streamStart p) 0x12 4 0 0) ∧
    (stream → let h := ((b 0x12).hub.clearErrors (ctxErr sid)).ctxStart sid
      h.errors (ctxErr sid) = 0 → ok (.streamStart p) 0x12 ((b 0x12).withHub h) [BitVec.ofNat 16 (h.stateWord sid)])) ∧
  (passes 0x13 → n = 2 → s.hub.hl.stopping = none → (¬ stream → bad (.streamStop p) 0x13 4 0 0) ∧
    (stream → 1 < w 1 → bad (.streamStop p) 0x13 4 1 0) ∧
    (stream → w 1 ≤ 1 → let h := (b 0x13).hub.ctxStop sid
      (w 1 = 0 ∨ (h.strm sid).state = .idle → ok (.streamStop p) 0x13 ((b 0x13).withHub h) [BitVec.ofNat 16 (h.strm sid).state.code]) ∧
      (w 1 = 1 → (h.strm sid).state ≠ .idle →
        exec (.streamStop p) s = .next ((b 0x13).withHub { h with hl := { h.hl with stopping := some (p, h.now) } }).settle))) ∧
  (∀ t0, s.hub.hl.stopping = some (p, t0) → s.hub.mbonik = true →
    let u := s.withHub { s.hub with hl := { s.hub.hl with stopping := none } }
    let st := (s.hub.strm sid).state
    (st = .idle → ok (.streamStop p) 0x13 u [0]) ∧
    (st ≠ .idle → t0 + 6400000000 ≤ s.hub.now →
      exec (.streamStop p) s = .next (State.answered 0x13 p (.bad u 0x0E 0xFFFF st.code)).settle) ∧
    (st ≠ .idle → s.hub.now < t0 + 6400000000 → exec (.streamStop p) s = .next s)) ∧
  (passes 0x14 → n = 0 → ∃ ws, ok (.streamStates p) 0x14 (b 0x14) ws ∧ ws.length = 64 ∧ ∀ k, 1 ≤ k → k < 256 →
    (ws.getD (k / 4) 0).toNat / 2 ^ (4 * (k % 4)) % 16 = (s.hub.strm k).state.code) ∧
  (passes 0x22 → n = 0 → ok (.syncCommand p) 0x22 (onHub 0x22 (fun h => h.sync (h.portAhead 1))) []) ∧
  (passes 0x32 → n = 1 → (127 < w 0 → bad (.kick p) 0x32 4 0 0) ∧
    (w 0 ≤ 127 → ok (.kick p) 0x32 (onHub 0x32 (fun h => h.fallDue (w 0))) [])) ∧
  (passes 0x33 → n = 0 → ∃ ws, ok (.probeStates p) 0x33 (b 0x33) ws ∧ ws.length = 8 ∧ ∀ k, k < 64 →
    (ws.getD (k / 8) 0).toNat / 2 ^ (2 * (k % 8)) % 4 = (s.hub.prb k).state.code) ∧
  (passes 0x42 → n = 2 → (31 < w 0 → bad (.eqPop p) 0x42 4 0 0) ∧ (w 0 ≤ 31 → w 1 = 0 ∨ 30 < w 1 → bad (.eqPop p) 0x42 4 1 0) ∧
    (w 0 ≤ 31 → 1 ≤ w 1 → w 1 ≤ 30 → let r := Hub.popReady (w 1) (w 0) (b 0x42).hub
      ok (.eqPop p) 0x42 ((b 0x42).withHub r.2) (BitVec.ofNat 16 r.1.length :: (r.2.eqStatus (w 0)).setWidth 16 ::
        r.1.flatMap (fun v => halves 8 v.toNat)))) ∧
  (passes 0x43 → n = 9 → (31 < w 0 → bad (.eqPost p) 0x43 4 0 0) ∧
    (w 0 ≤ 31 → let h := ((b 0x43).hub.clearErrors eqErr).eqPush (w 0) 128 (BitVec.ofNat 128 (pnum p 1 8))
      (h.errors eqErr).testBit 2 = false → ok (.eqPost p) 0x43 ((b 0x43).withHub h) [])) ∧
  (passes 0x52 → n = 2 → (127 < w 0 → bad (.ringTake p) 0x52 4 0 0) ∧ (w 0 ≤ 127 → w 1 = 0 ∨ 30 < w 1 → bad (.ringTake p) 0x52 4 1 0) ∧
    (w 0 ≤ 127 → 1 ≤ w 1 → w 1 ≤ 30 → s.hub.ringOn (w 0) = false ∨ s.hub.fld (ringReg (w 0) 8) 1 2 ≠ 0 → bad (.ringTake p) 0x52 8 0xFFFF 0) ∧
    (w 0 ≤ 127 → 1 ≤ w 1 → w 1 ≤ 30 → s.hub.ringOn (w 0) = true → s.hub.fld (ringReg (w 0) 8) 1 2 = 0 →
      let r := s.hub.ring (w 0)
      let k := min (w 1) r.fill
      ok (.ringTake p) 0x52 (onHub 0x52 (fun h => h.rdWrite (w 0) (r.rd + BitVec.ofNat 32 k))) (half2 r.rd ++ [BitVec.ofNat 16 k] ++
        (List.range k).flatMap (fun i => halves 8 (ofBytes (s.load (s.hub.recordAddr (w 0) (r.rd + BitVec.ofNat 32 i)) 16)))))) ∧
  (passes 0x62 → n = 0 → ok (.timeNow p) 0x62 (b 0x62) (halves 4 ((s.hub.tb.wraps.toNat + s.hub.tb.wrapDue.toNat) * 2 ^ 32 + s.hub.ts.toNat) ++
    [s.hub.tb.acc.extractLsb' 16 16] ++ halves 3 s.hub.tb.epochS.toNat ++ halves 2 s.hub.tb.epochNs.toNat ++ [s.hub.tbStatus.setWidth 16])) ∧
  (passes 0x63 → n = 6 → (999999999 < pnum p 3 2 → bad (.epochSet p) 0x63 4 3 0) ∧
    (pnum p 3 2 ≤ 999999999 → 1 < w 5 → bad (.epochSet p) 0x63 4 5 0) ∧
    (pnum p 3 2 ≤ 999999999 → w 5 ≤ 1 → s.hub.tb.wrapDue = false ∨ s.hub.tb.armed = false →
      let h := (((b 0x63).hub.clearErrors tbErr).tbDisarm.setNext (BitVec.ofNat 48 (pnum p 0 3)) (BitVec.ofNat 30 (pnum p 3 2)))
      let g := if w 5 = 1 then h.tbRepair else h.tbArm
      (g.errors tbErr).testBit 3 = false → ok (.epochSet p) 0x63 ((b 0x63).withHub g) [0])) ∧
  (passes 0x64 → n = 3 → let h := ((((b 0x64).hub.clearErrors tbErr).tbWrite 0x008 (BitVec.ofNat 32 (pnum p 0 2))).tbWrite 0x00C
      (BitVec.ofNat 32 (w 2 % 256))).tbCommit
    (h.errors tbErr = 0 → ok (.tincSet p) 0x64 ((b 0x64).withHub h) []) ∧
    (h.errors tbErr ≠ 0 → exec (.tincSet p) s = .next (State.answered 0x64 p (.bad ((b 0x64).withHub h) 7 0xFFFF (h.fld 0x2007C 0 16))).settle)) ∧
  (passes 0x70 → n = 1 → let u := onHub 0x70 (fun h => (h.setFld 0x10100 0 16 (w 0)).governEvaluate)
    ok (.ltolSet p) 0x70 u [u.hub.pwrStatus.setWidth 16]) ∧
  (∀ e ∈ ([(.sysRead p, 0x06), (.ctxRead p, 0x10), (.bankRead p, 0x20), (.schRead p, 0x30), (.recRead p, 0x40), (.ringRead p, 0x50),
    (.tnRead p, 0x60), (.pwrRead p, 0x71), (.hltRead p, 0x80), (.engRead p, 0xA6)] : List (Instr × Nat)),
    ∀ base span, passes e.2 → n = 3 → w 0 < 256 → blockAt e.2 (w 0) = some (base, span) →
    (w 1 % 4 ≠ 0 → bad e.1 e.2 4 1 0) ∧ (w 1 % 4 = 0 → w 2 = 0 ∨ 120 < w 2 → bad e.1 e.2 4 2 0) ∧
    (w 1 % 4 = 0 → 1 ≤ w 2 → w 2 ≤ 120 → span < w 1 + 4 * w 2 → bad e.1 e.2 4 1 0) ∧
    (w 1 % 4 = 0 → 1 ≤ w 2 → w 2 ≤ 120 → w 1 + 4 * w 2 ≤ span → (∀ i, i < w 2 → excluded false base (w 1 + 4 * i) = none) →
      ok e.1 e.2 (State.readRegs (w 2) (base + w 1) (b e.2)).2 (State.readRegs (w 2) (base + w 1) (b e.2)).1)) ∧
  (∀ e ∈ ([(.sysWrite p, 0x07), (.ctxWrite p, 0x11), (.bankWrite p, 0x21), (.schWrite p, 0x31), (.recWrite p, 0x41), (.ringWrite p, 0x51),
    (.tnWrite p, 0x61), (.pwrWrite p, 0x72), (.hltWrite p, 0x81)] : List (Instr × Nat)),
    ∀ base span, passes e.2 → countedOk p = true → w 0 < 256 → blockAt e.2 (w 0) = some (base, span) →
    (w 1 % 4 ≠ 0 → bad e.1 e.2 4 1 0) ∧ (w 1 % 4 = 0 → w 2 = 0 ∨ 120 < w 2 → bad e.1 e.2 4 2 0) ∧
    (w 1 % 4 = 0 → 1 ≤ w 2 → w 2 ≤ 120 → w 1 + 4 * w 2 ≤ span → (∀ i, i < w 2 → excluded true base (w 1 + 4 * i) = none) →
      ∀ u, State.writeRegs ((List.range (w 2)).map (fun i => BitVec.ofNat 32 (pnum p (3 + 2 * i) 2))) (base + w 1) 0
        (onHub e.2 (fun h => (List.range (w 2)).foldl (fun (g : Hub) i => g.clearAt (base + w 1 + 4 * i)) h)) = .ok u [] →
      ok e.1 e.2 u [])) ∧
  (passes 0xB0 → n = 3 → (pnum p 0 2 % 4 ≠ 0 → bad (.memRead p) 0xB0 4 0 0) ∧
    (pnum p 0 2 % 4 = 0 → w 2 = 0 ∨ 120 < w 2 → bad (.memRead p) 0xB0 4 2 0) ∧
    (pnum p 0 2 % 4 = 0 → 1 ≤ w 2 → w 2 ≤ 120 → (∀ i, i < w 2 → s.hub.blocked (pnum p 0 2 + 4 * i) = false) →
      ok (.memRead p) 0xB0 (State.readRegs (w 2) (pnum p 0 2) (b 0xB0)).2 (State.readRegs (w 2) (pnum p 0 2) (b 0xB0)).1)) ∧
  (passes 0xB1 → countedOk p = true → pnum p 0 2 % 4 = 0 → 1 ≤ w 2 → w 2 ≤ 120 →
    (∀ i, i < w 2 → s.hub.blocked (pnum p 0 2 + 4 * i) = false) →
    ok (.memWrite p) 0xB1 ((List.range (w 2)).foldl (fun (t : State) i => t.fabricWrite .col (pnum p 0 2 + 4 * i) 4 (pnum p (3 + 2 * i) 2))
      (b 0xB1)) [])

/-- Health, security, firmware and task packets once they have passed the checks (R291, R352 to R354, R377 to R389): units are retired,
retested and tested; the debug state opens on a signed response alone and eight failures lock it out; the lifecycle moves as R377 allows;
images are staged, checked and installed. Outcomes of self-tests, OTP and flash come with the command. -/
def Obligations.SecureAndImagePackets : Prop := ∀ (s : State) (p : Pkt), s.hub.sysq = [] →
  let n := p.params.length
  let w := fun i => pword p i
  let passes := fun op => s.hub.serves p = true ∧ p.flags >>> 1 = 0 ∧ s.hub.denied op p.t = none ∧ s.hub.wrongPower op p = false
  let b := fun op => s.withHub (s.hub.begun op p)
  let ok := fun (c : Instr) (op : Nat) (u : State) (ws : List Half) => exec c s = .next (State.answered op p (.ok u ws)).settle
  let no := fun (c : Instr) (op : Nat) (u : State) (st r d : Nat) => exec c s = .next (State.answered op p (.bad u st r d)).settle
  let bad := fun (c : Instr) (op st r d : Nat) => no c op (b op) st r d
  let sec := fun (op : Nat) (x : Sec) => (b op).withHub { (b op).hub with sec := x }
  let framed := fun (op : Nat) (y : Sec) => s.withHub (sec op y).hub.flashFrame
  let x := s.hub.sec
  let units := [0x10, 0x11, 0x12, 0x50]
  let failed : Sec := { x with
    fails := min 8 (x.fails + 1), lockout := x.lockout || decide (8 ≤ min 8 (x.fails + 1)), nonce := none }
  let image := s.imageStatus (pnum p 0 2)
  let staging := 0x200000000 + (1 - x.bootSlot) * 0x400000
  (passes 0x82 → n = 0 → ∃ ws, ok (.ageReport p) 0x82 ((b 0x82).withHub { (b 0x82).hub with free := s.hub.free + 1 }) ws ∧ ws.length = 127) ∧
  (passes 0x83 → n = 2 → (w 0 ∉ units → w 0 ≠ 0x42 → bad (.retire p) 0x83 4 0 0) ∧
    (w 0 ∈ units → physicalCount (w 0) ≤ w 1 → bad (.retire p) 0x83 4 1 0) ∧
    (w 0 ∈ units → w 1 < physicalCount (w 0) → s.hub.unitState (w 0) (w 1) ≠ 1 → bad (.retire p) 0x83 8 0xFFFF 0) ∧
    (w 0 ∈ units → w 1 < physicalCount (w 0) → s.hub.unitState (w 0) (w 1) = 1 →
      ok (.retire p) 0x83 ((b 0x83).retireUnit (w 0) (w 1)).1 [BitVec.ofNat 16 ((b 0x83).retireUnit (w 0) (w 1)).2])) ∧
  (∀ t, passes 0x84 → n = 1 → (71 < w 0 → bad (.retest p t) 0x84 4 0 0) ∧
    (w 0 ≤ 71 → s.hub.unitState 0x50 (w 0) ≠ 3 → bad (.retest p t) 0x84 8 0xFFFF 0)) ∧
  (passes 0x84 → n = 1 → w 0 ≤ 71 → s.hub.unitState 0x50 (w 0) = 3 → ok (.retest p false) 0x84 (b 0x84) [1] ∧
    ok (.retest p true) 0x84 ((b 0x84).withHub { (b 0x84).hub with rp := { s.hub.rp with
      returning := if w 0 ∈ s.hub.rp.returning then s.hub.rp.returning else s.hub.rp.returning ++ [w 0] } }) [0]) ∧
  (∀ l, passes 0x85 → n = 1 → 7 < w 0 → bad (.selftest p l) 0x85 4 0 0) ∧
  (∀ l, passes 0x85 → n = 1 → w 0 = 0 → bad (.selftest p l) 0x85 0x0F 0xFFFF 0) ∧
  (passes 0x85 → n = 1 → w 0 = 1 → s.hub.spareUnits 0x50 ≠ [] →
    ok (.selftest p []) 0x85 (b 0x85) [BitVec.ofNat 16 (s.hub.spareUnits 0x50).length, 0]) ∧
  (passes 0x90 → n = 0 → ok (.secStatus p) 0x90 (b 0x90) (BitVec.ofNat 16 (s.hub.lc.toNat + x.dbg.toNat * 16) :: halves 4 s.arbCounter)) ∧
  (passes 0x91 → n = 0 → ok (.dbgChallenge p) 0x91 (sec 0x91 { x with nonce := some x.drawn, drawn := x.drawn + 1 })
    (halves 8 (Config.nonce x.drawn).toNat ++ halves 8 Config.uniqueId.toNat)) ∧
  (passes 0x92 → n = 32 → let open_ := s.hub.lc ≠ 0 ∧ s.hashWritten 0x0A0 = true ∧ x.lockout = false
    (¬ open_ → no (.dbgResponse p) 0x92 (sec 0x92 failed) 0x0A 0xFFFF 0) ∧
    (open_ → x.nonce = none → bad (.dbgResponse p) 0x92 8 0xFFFF 0) ∧
    (∀ k im, open_ → x.nonce = some k → x.image = some im →
      let signed := Config.ecdsaVerify im.dbgHash (Config.sha256 (bytesOf 16 Config.uniqueId.toNat ++ bytesOf 16 (Config.nonce k).toNat ++
        [BitVec.ofNat 8 s.hub.lc.toNat])) (BitVec.ofNat 512 (pnum p 0 32))
      (signed = true → ok (.dbgResponse p) 0x92 (sec 0x92 { x with dbg := 1, fails := 0, nonce := none }) []) ∧
      (signed = false → no (.dbgResponse p) 0x92 (sec 0x92 failed) 0x0A 0xFFFF 0))) ∧
  (passes 0x93 → n = 0 → ok (.dbgClose p) 0x93 ((b 0x93).withHub (b 0x93).hub.closeDebug) [] ∧ (s.hub.closeDebug).sec.dbg = 0) ∧
  (∀ t, passes 0x94 → n = 2 → (w 1 ≠ 0x5AA5 → bad (.lifecycleSet p t) 0x94 4 1 0) ∧
    (w 1 = 0x5AA5 → x.pend.isSome = true ∨ s.mayBecome (w 0) = false → bad (.lifecycleSet p t) 0x94 8 0xFFFF 0)) ∧
  (passes 0x94 → n = 2 → w 1 = 0x5AA5 → x.pend = none → s.mayBecome (w 0) = true →
    ok (.lifecycleSet p true) 0x94 (sec 0x94 { x with pend := some (BitVec.ofNat 2 (w 0)) }) [] ∧
    no (.lifecycleSet p false) 0x94 ((b 0x94).withHub ((b 0x94).hub.flag secErr 3 0)) 8 0xFFFF 0) ∧
  (∀ t, s.mayBecome t = true → s.hub.lc.toNat < t ∧ t ≤ 3) ∧
  (passes 0xA0 → n = 0 → ok (.fwInfo p) 0xA0 (b 0xA0) (((x.image.map (fun i => i.version)).getD 0) ::
    halves 4 ((x.image.map (fun i => i.arb.toNat)).getD 0) ++ halves 1 x.staged)) ∧
  (∀ t, passes 0xA1 → 3 ≤ n → n ≤ 242 → let bs := bytesOfWords (p.params.drop 2)
    (pnum p 0 2 % 2 ≠ 0 ∨ 0x400000 < pnum p 0 2 + bs.length → bad (.fwStage p t) 0xA1 4 0 0) ∧
    (pnum p 0 2 % 2 = 0 → pnum p 0 2 + bs.length ≤ 0x400000 →
      ok (.fwStage p true) 0xA1 ((framed 0xA1 { x with staged := 1 }).store (staging + pnum p 0 2) bs) [] ∧
      ∃ u, no (.fwStage p false) 0xA1 u 0x0D 0xFFFF 0 ∧ u.hub.sec = { x with staged := 1 } ∧
        ∀ a, a < staging + pnum p 0 2 ∨ staging + pnum p 0 2 + bs.length ≤ a → memGet u.mem a = memGet s.mem a)) ∧
  (∀ t, passes 0xA2 → n = 2 → image ≠ 0 → bad (.fwCommit p t) 0xA2 image 0xFFFF 0) ∧
  (passes 0xA2 → n = 2 → image = 0 → let k := nextSelector x.selectors
    let at_ := 0x200800000 + 0x1000 * k.1
    let record := bytesOf 4 k.2 ++ bytesOf 4 (1 - x.bootSlot)
    ok (.fwCommit p true) 0xA2 ((framed 0xA2 { x with staged := 2, selectors := x.selectors.set k.1 (some (k.2, 1 - x.bootSlot)) }).store at_
      (record ++ bytesOf 4 (crc32 record).toNat)) [] ∧
    ∃ u, no (.fwCommit p false) 0xA2 u 0x0D 0xFFFF 0 ∧ u.hub.sec = { x with selectors := x.selectors.set k.1 none } ∧
      ∀ a, a < at_ ∨ at_ + 12 ≤ a → memGet u.mem a = memGet s.mem a) ∧
  (passes 0xA3 → 2 ≤ n → n ≤ 241 → let bs := bytesOfWords (p.params.drop 1)
    (w 0 % 2 ≠ 0 ∨ 24576 < w 0 + bs.length → bad (.taskStage p) 0xA3 4 0 0) ∧
    (w 0 % 2 = 0 → w 0 + bs.length ≤ 24576 → ok (.taskStage p) 0xA3 ((b 0xA3).store (0x400000000 + w 0) bs) [])) ∧
  (passes 0xA4 → n = 37 → (255 < w 0 → bad (.taskInstall p) 0xA4 4 0 0) ∧
    (w 0 ≤ 255 → w 1 < 0x100 ∨ 0x7FFF < w 1 → bad (.taskInstall p) 0xA4 4 1 0) ∧
    (let fits := w 0 ≤ 255 ∧ 0x100 ≤ w 1 ∧ w 1 ≤ 0x7FFF ∧ w 2 ≤ 0x7FFF ∧ w 3 ≤ 24576 ∧ w 2 + w 3 ≤ 0x8000 ∧ w 4 ≤ 255
     let bs := s.load 0x400000000 (w 3)
     let good := s.hub.sec.image.any (fun im => Config.ecdsaVerify im.taskHash
       (Config.sha256 (bytesOfWords (p.params.take 5) ++ bs)) (BitVec.ofNat 512 (pnum p 5 32)))
     let l := s.hub.taskEngines.filter (fun e => (s.hub.slotFor e (w 0)).isSome)
     (fits → 2 ≤ s.hub.lc.toNat → good = false → bad (.taskInstall p) 0xA4 0x0B 0xFFFF 0) ∧
     (fits → s.hub.lc.toNat < 2 ∨ good = true → s.hub.taskInUse (w 0) = true → bad (.taskInstall p) 0xA4 8 0xFFFF 0) ∧
     (fits → s.hub.lc.toNat < 2 ∨ good = true → s.hub.taskInUse (w 0) = false →
       let u := l.foldl (State.installOn (w 2) (w 1 + 2 ^ 15 + w 0 * 2 ^ 16 + w 4 * 2 ^ 24) (w 0) bs) (b 0xA4)
       ok (.taskInstall p) 0xA4 (u.withHub { u.hub with images := tput u.hub.images (w 0) (decide (2 ≤ s.hub.lc.toNat)) })
         [BitVec.ofNat 16 l.length]))) ∧
  (passes 0xA5 → n = 1 → (255 < w 0 → bad (.taskRemove p) 0xA5 4 0 0) ∧
    (w 0 ≤ 255 → s.hub.taskInUse (w 0) = true → bad (.taskRemove p) 0xA5 8 0xFFFF 0) ∧
    (w 0 ≤ 255 → s.hub.taskInUse (w 0) = false → ∃ u, ok (.taskRemove p) 0xA5 u [] ∧ u.mem = s.mem ∧ tget u.hub.images (w 0) = none))

/-! ### Reset, boot, supplies and the test access port (R397 to R416, R421) -/

/-- Resets, boot and supplies (R378, R397 to R405, R421): what a reset keeps and writes, a boot that starts an image or fails at a stage and
is repeated, the watchdog's key, and rails that leave and regain their range. What a boot reads of flash and finds in its tests comes
with the command. -/
def Obligations.ResetAndBootCommands : Prop := ∀ (s : State) (b : BootInput), s.hub.sysq = [] →
  let h := s.hub
  let resets := fun (c : Instr) (cause : Nat) (aon : Bool) => ∃ t, exec c s = .next t ∧ t.mem = s.mem ∧ t.hub.fld 0x10060 0 3 = cause ∧
    t.hub.bit 0x10060 3 = aon ∧ t.hub.fld 0x10060 16 16 = (if aon then 0 else min 65535 (h.fld 0x10060 16 16 + 1)) ∧
    t.hub.fld 0x10060 4 6 = (if aon then 16 else h.age.vid % 64) ∧ t.hub.fld 0x10060 10 2 = (if aon then 0 else h.age.step % 4) ∧
    (∀ a, a ≠ 0x10060 → t.hub.reg a = Hub.reset.reg a) ∧ t.hub.lc = h.sec.pend.getD h.lc ∧ t.hub.rp.otp = h.rp.otp ∧
    t.hub.sec.dbg = (if t.hub.lc = 0 then 2 else 0) ∧ t.hub.mbonik = false ∧ t.hub.hl = Hub.reset.hl ∧ t.hub.engines = [] ∧
    t.hub.flight = [] ∧ t.hub.streams = [] ∧ t.hub.eqs = [] ∧ t.hub.lay = Hub.reset.lay ∧ t.hub.pwr = Hub.reset.pwr ∧
    (aon = false → t.hub.age.hist = h.age.hist ∧ t.hub.age.onFor = h.age.onFor ∧ t.hub.tap.ir = h.tap.ir ∧ t.hub.tap.cells = h.tap.cells)
  let isUp := fun (t : State) (slot : Nat) (v : ImageView) => t.hub.mbonik = true ∧ t.hub.hl.ready = true ∧ t.hub.hl.rdy = true ∧
    t.hub.retryAt = none ∧ t.hub.lay.gen = 1 ∧ t.hub.fld 0x1006C 0 4 = 8 ∧ t.hub.fld 0x1006C 9 1 = slot % 2 ∧ t.hub.sec.bootSlot = slot ∧
    t.hub.sec.image = some { version := v.version, enc := v.enc, slot := v.slot, revoke := v.revokeLower, arb := v.arb, dbgHash := v.dbgHash,
                             taskHash := v.taskHash }
  let fails := fun (t : State) (stage err now : Nat) => t.hub.fld 0x1006C 0 4 = stage ∧ t.hub.fld 0x1006C 4 4 = err ∧
    t.hub.retryAt = some (now + 64000000000) ∧ t.hub.mbonik = h.mbonik ∧ t.hub.hl.ready = h.hl.ready
  let later := h.now + b.lockTicks % 2 ^ 29 * 256
  let rail := fun r : Rail => (if r = .vddioB then 0 else if r = .vddSd then 1 else if r = .vddPll then 2 else 4 : Nat)
  let low := fun (t : State) (place flag : Nat) => t.hub.supply = h.supply ||| BitVec.ofNat 5 (2 ^ place) ∧ t.hub.bit 0x10070 flag = true
  (∀ a, resets (.powerOnReset a) 1 a) ∧ resets .pinReset 2 false ∧ resets .commandReset 4 false ∧ resets .lockstepMismatch 5 false ∧
  (h.bit 0x10064 16 = true → resets .watchdogExpire 3 false) ∧ (h.bit 0x10064 16 = false → exec .watchdogExpire s = .next s) ∧
  (exec (.wdtKick .col 0x5A5A) s = .next (s.withHub { h with wdt := 0 })) ∧
  (∀ v, v ≠ 0x5A5A → exec (.wdtKick .col v) s = .next (s.withHub (h.setFld 0x1007C 0 1 1))) ∧
  (∀ i v, i ≠ .col → exec (.wdtKick i v) s = .next (s.withHub (h.setFld 0x1007C 2 1 1))) ∧
  (h.hl.ready = true ∨ h.retryAt.isSome = true → exec (.boot b) s = .next s) ∧
  (h.hl.ready = false → h.retryAt = none → ∃ t, exec (.boot b) s = .next t ∧ t.hub.tb.lock = true ∧ t.hub.now = later ∧
    (b.colRamBad = true → fails t 4 2 later) ∧
    (∀ slot m v, b.colRamBad = false → s.findImage b = .ok (slot, m, v) → isUp t slot v) ∧
    (∀ e, b.colRamBad = false → s.findImage b = .error e → e < 16 → fails t (if e = 3 then 5 else 6) e later)) ∧
  (h.retryAt = none → exec (.bootRetry b) s = .next s) ∧
  (h.retryAt.isSome = true → ∃ t, exec (.bootRetry b) s = .next t ∧ t.hub.fld 0x1006C 12 4 = min 15 (h.fld 0x1006C 12 4 + 1) ∧ t.mem = s.mem ∧
    (∀ slot m v, s.findImage b = .ok (slot, m, v) → isUp t slot v) ∧
    (∀ e, s.findImage b = .error e → e < 16 → fails t (if e = 3 then 5 else 6) e h.now)) ∧
  (∀ r, ∃ t, exec (.supplyLow r) s = .next t ∧ low t (rail r) (if r = .vddhSd then 1 else rail r) ∧
    (r = .vddioB → t.hub.ang.angLevel = 0 ∧ t.hub.ang.trgLevel = 0) ∧
    (r = .vddSd ∨ r = .vddhSd → (t.hub.mac 0).link = false ∧ (t.hub.mac 1).link = false) ∧
    (r = .vddPll → h.tb.onCrystal = false → t.hub.tb.holdover = true)) ∧
  (∀ r, exec (.supplyRestore r) s = .next (s.withHub { h with supply := h.supply &&& ~~~ (BitVec.ofNat 5 (2 ^ rail r)) })) ∧
  (∃ t, exec .xtalLost s = .next t ∧ low t 3 3 ∧ t.hub.tb = h.tb) ∧
  (exec .xtalReturn s = .next (s.withHub { h with supply := h.supply &&& ~~~ 8 }))

/-- The test access port (R390 to R392, R407 to R416): instructions load or are refused; a debug access needs an open session, an aligned
address and no blocked region, and acts on the fabric; HEALTHRD and the boundary register act while their instruction is in force. -/
def Obligations.TestPortCommands : Prop := ∀ (s : State), s.hub.sysq = [] →
  let tap := s.hub.tap
  let tapAt := fun (t : Tap) => s.withHub { s.hub with tap := t }
  let load := fun k => tapAt { tap with ir := k, refused := false }
  let refuse := tapAt { tap with ir := 0xFF, refused := true }
  let free := s.hub.pwr.state < 2 ∧ (s.hub.pwr.entering = false ∨ s.hub.pwr.target ≤ 1)
  let session := s.hub.sec.dbg ≠ 0 ∧ s.hub.pwr.state < 3
  let good := fun a : Word => tap.ir = 0x10 ∧ a.toNat % 4 = 0 ∧ tap.ended = false ∧ session
  let blocked := fun a : Word => s.hub.blocked a.toNat = true ∨ regionOf a.toNat = .unmapped
  (exec .tapReset s = .next (tapAt { tap with ir := 0x02 })) ∧
  (exec .captureIr s = .next (tapAt { tap with capture := BitVec.ofNat 8 (1 + tap.refused.toNat * 4 + s.hub.pwr.state * 16) })) ∧
  (free → exec .extest s = .next (load 0x00) ∧ exec .clamp s = .next (load 0x03)) ∧
  (¬ free → exec .extest s = .next refuse ∧ exec .clamp s = .next refuse) ∧
  (exec .samplePreload s = .next (load 0x01)) ∧ (exec .idcode s = .next (load 0x02)) ∧ (exec .highz s = .next (load 0x04)) ∧
  (exec .healthrd s = .next (load 0x11)) ∧
  (∀ c : Byte, c ∈ ([0x00, 0x01, 0x02, 0x03, 0x04, 0x10, 0x11] : List Byte) → exec (.bypass c) s = .next s) ∧
  (∀ c : Byte, c ∉ ([0x00, 0x01, 0x02, 0x03, 0x04, 0x10, 0x11] : List Byte) → exec (.bypass c) s = .next (load 0xFF)) ∧
  (session → exec .dbgacc s = .next (tapAt { tap with ir := 0x10, refused := false, ended := false })) ∧
  (¬ session → exec .dbgacc s = .next refuse) ∧
  (∀ d : BitVec 66, tap.ir ≠ 0x10 ∨ d.toNat / 2 ^ 64 = 0 → exec (.dbgaccUpdate d) s = .next s) ∧
  (∀ (a v : Word) (op : BitVec 2), tap.ir = 0x10 → op ≠ 0 → op = 3 ∨ ¬ good a →
    exec (.dbgaccUpdate (op ++ a ++ v)) s = .next (tapAt { tap with err := true })) ∧
  (∀ a v : Word, good a → s.hub.stoppedEngine a.toNat = false →
    ∃ t, exec (.dbgaccUpdate ((1 : BitVec 2) ++ a ++ v)) s = .next t ∧ t.hub.tap.addr = a ∧ t.hub.tap.err = decide (blocked a) ∧
      t.hub.tap.data = BitVec.ofNat 32 (s.fabricRead .debug a.toNat 4).1 ∧ t.hub.tap.ir = 0x10) ∧
  (∀ a v : Word, good a → 0x01000000 ≤ a.toNat → a.toNat < 0x02000000 →
    exec (.dbgaccUpdate ((2 : BitVec 2) ++ a ++ v)) s =
      .next ((tapAt { tap with addr := a, err := false }).store a.toNat (bytesOf 4 v.toNat))) ∧
  (tap.ir = 0x11 → exec .healthrdCapture s = .next (tapAt { tap with health := s.healthReg })) ∧
  (tap.ir ≠ 0x11 → exec .healthrdCapture s = .next s) ∧
  (∀ c, tap.ir = 0x00 ∨ tap.ir = 0x01 → exec (.boundaryUpdate c) s = .next (tapAt { tap with cells := c })) ∧
  (∀ c, tap.ir ≠ 0x00 → tap.ir ≠ 0x01 → exec (.boundaryUpdate c) s = .next s)
end

