-- ==== Sys2Proof/Laws/Memory.lean ====
section
/-! SUPPORT. Laws of sparse tables and of storage: a read after a write, and the canonical form, which every storage operation keeps. -/

namespace Sys2Proof.Machine

/-- Indices strictly rising. -/
def Rising {α : Type} (t : Tab α) : Prop := t.Pairwise (fun x y => x.1 < y.1)

theorem tget_tput_same {α : Type} (t : Tab α) (k : Nat) (v : α) : tget (tput t k v) k = some v := by
  induction t with
  | nil => simp [tput, tget]
  | cons e r ih =>
    obtain ⟨j, w⟩ := e
    by_cases h1 : k < j
    · simp [tput, h1, tget]
    · by_cases h2 : k = j
      · simp [tput, h2, tget]
      · have h3 : j ≠ k := fun h => h2 h.symm
        simp [tput, h1, h2, tget, h3, ih]

theorem tget_tput_other {α : Type} (t : Tab α) (k j : Nat) (v : α) (h : j ≠ k) : tget (tput t k v) j = tget t j := by
  induction t with
  | nil => simp [tput, tget, h.symm]
  | cons e r ih =>
    obtain ⟨i, w⟩ := e
    by_cases h1 : k < i
    · simp [tput, h1, tget, h.symm]
    · by_cases h2 : k = i
      · subst h2; simp [tput, tget, h.symm]
      · simp only [tput, h1, h2, if_false, tget, ih]

theorem tget_tdel_same {α : Type} (t : Tab α) (k : Nat) : tget (tdel t k) k = none := by
  induction t with
  | nil => rfl
  | cons e r ih =>
    obtain ⟨i, w⟩ := e
    by_cases h : i = k
    · simpa [tdel, h] using ih
    · simpa [tdel, h, tget] using ih

theorem tget_tdel_other {α : Type} (t : Tab α) (k j : Nat) (h : j ≠ k) : tget (tdel t k) j = tget t j := by
  induction t with
  | nil => rfl
  | cons e r ih =>
    obtain ⟨i, w⟩ := e
    by_cases h1 : i = k
    · subst h1; simpa [tdel, tget, h.symm] using ih
    · by_cases h2 : i = j
      · subst h2; simp [tdel, tget, h]
      · simpa [tdel, tget, h1, h2] using ih

theorem tval_tset_same {α : Type} [DecidableEq α] (d : α) (t : Tab α) (k : Nat) (v : α) : tval d (tset d t k v) k = v := by
  by_cases h : v = d
  · simp [tval, tset, h, tget_tdel_same]
  · simp [tval, tset, h, tget_tput_same]

theorem tval_tset_other {α : Type} [DecidableEq α] (d e : α) (t : Tab α) (k j : Nat) (v : α) (h : j ≠ k) :
    tval e (tset d t k v) j = tval e t j := by
  by_cases h' : v = d
  · simp [tval, tset, h', tget_tdel_other _ _ _ h]
  · simp [tval, tset, h', tget_tput_other _ _ _ _ h]

theorem mem_tput {α : Type} (t : Tab α) (k : Nat) (v : α) (e : Nat × α) (h : e ∈ tput t k v) : e = (k, v) ∨ e ∈ t := by
  induction t with
  | nil => simpa [tput] using h
  | cons a r ih =>
    obtain ⟨i, w⟩ := a
    by_cases h1 : k < i
    · simpa [tput, h1] using h
    · by_cases h2 : k = i
      · subst h2
        simp [tput] at h
        rcases h with h | h
        · exact .inl h
        · exact .inr (List.mem_cons_of_mem _ h)
      · simp [tput, h1, h2] at h
        rcases h with h | h
        · exact .inr (by simp [h])
        · rcases ih h with h | h
          · exact .inl h
          · exact .inr (List.mem_cons_of_mem _ h)

theorem tput_rising {α : Type} (t : Tab α) (k : Nat) (v : α) (h : Rising t) : Rising (tput t k v) := by
  induction t with
  | nil => simp [tput, Rising]
  | cons a r ih =>
    obtain ⟨i, w⟩ := a
    have hr : Rising r := (List.pairwise_cons.mp h).2
    have hi : ∀ e ∈ r, i < e.1 := (List.pairwise_cons.mp h).1
    by_cases h1 : k < i
    · simp only [tput, h1, if_true, Rising]
      refine List.pairwise_cons.mpr ⟨?_, h⟩
      intro e he
      rcases List.mem_cons.mp he with he | he
      · subst he; exact h1
      · exact Nat.lt_trans h1 (hi e he)
    · by_cases h2 : k = i
      · subst h2
        simp only [tput, Nat.lt_irrefl, if_false, if_true, Rising]
        exact List.pairwise_cons.mpr ⟨hi, hr⟩
      · simp only [tput, h1, h2, if_false, Rising]
        refine List.pairwise_cons.mpr ⟨?_, ih hr⟩
        intro e he
        rcases mem_tput r k v e he with he | he
        · subst he; show i < k; omega
        · exact hi e he

theorem filter_rising {α : Type} (t : Tab α) (f : Nat × α → Bool) (h : Rising t) : Rising (t.filter f) := List.Pairwise.filter f h

/-- The canonical form, as a proposition. -/
theorem wf_iff (m : List Host.Cell) : Memory.wf m = true ↔ Rising m ∧ ∀ e ∈ m, e.2 ≠ memDefault := by
  simp [Memory.wf, Rising]

theorem filter_wf (m : List Host.Cell) (f : Host.Cell → Bool) (h : Memory.wf m = true) : Memory.wf (m.filter f) = true := by
  rw [wf_iff] at *
  exact ⟨filter_rising m f h.1, fun e he => h.2 e (List.mem_of_mem_filter he)⟩

theorem memPut_wf (m : List Host.Cell) (a : Nat) (b : Byte) (h : Memory.wf m = true) : Memory.wf (memPut m a b) = true := by
  by_cases hb : b = memDefault
  · simpa [memPut, tset, hb, tdel] using filter_wf m _ h
  · rw [wf_iff] at *
    simp only [memPut, tset, hb, if_false]
    refine ⟨tput_rising m a b h.1, fun e he => ?_⟩
    rcases mem_tput m a b e he with he | he
    · subst he; exact hb
    · exact h.2 e he

theorem memPutAll_wf (bs : List Byte) : ∀ (m : List Host.Cell) (a : Nat), Memory.wf m = true → Memory.wf (memPutAll m a bs) = true := by
  induction bs with
  | nil => intro m a h; exact h
  | cons b r ih => intro m a h; exact ih _ _ (memPut_wf m a b h)

/-- A byte read after it was written. -/
theorem memGet_memPut_same (m : List Host.Cell) (a : Nat) (b : Byte) : memGet (memPut m a b) a = b := tval_tset_same _ _ _ _

/-- Every other byte is as before. -/
theorem memGet_memPut_other (m : List Host.Cell) (a c : Nat) (b : Byte) (h : c ≠ a) : memGet (memPut m a b) c = memGet m c :=
  tval_tset_other _ _ _ _ _ _ h

/-- Bytes outside a stretch that is written are as before. -/
theorem memGet_memPutAll_other (bs : List Byte) : ∀ (m : List Host.Cell) (a c : Nat), c < a ∨ a + bs.length ≤ c →
    memGet (memPutAll m a bs) c = memGet m c := by
  induction bs with
  | nil => intro m a c _; rfl
  | cons b r ih =>
    intro m a c h
    simp only [List.length_cons] at h
    rw [memPutAll, ih _ _ _ (by omega)]
    exact memGet_memPut_other _ _ _ _ (by omega)

/-- Byte i of a stretch that is written. -/
theorem memGet_memPutAll_inside (bs : List Byte) : ∀ (m : List Host.Cell) (a i : Nat), i < bs.length →
    memGet (memPutAll m a bs) (a + i) = bs.getD i 0 := by
  induction bs with
  | nil => intro m a i h; simp at h
  | cons b r ih =>
    intro m a i h
    rw [memPutAll]
    cases i with
    | zero =>
      rw [memGet_memPutAll_other _ _ _ _ (by omega)]
      simpa using memGet_memPut_same m a b
    | succ n =>
      have := ih (memPut m a b) (a + 1) n (by simpa using h)
      have e : a + (n + 1) = a + 1 + n := by omega
      rw [e, this]
      simp

end Sys2Proof.Machine
end

