-- ==== Sys2Proof/Laws/Settle.lean ====
section
/-! SUPPORT. What the end of a command does: it stores the SID 0 records, keeps the queue and the canonical form of storage, and changes nothing
where no record was formed. -/

namespace Sys2Proof.Machine

@[simp] theorem mapHub_mem (s : State) (f : Hub → Hub) : (s.mapHub f).mem = s.mem := rfl
@[simp] theorem mapHub_pending (s : State) (f : Hub → Hub) : (s.mapHub f).pending = s.pending := rfl
@[simp] theorem mapHub_hub (s : State) (f : Hub → Hub) : (s.mapHub f).hub = f s.hub := rfl
@[simp] theorem store_hub (s : State) (a : Nat) (bs : List Byte) : (s.store a bs).hub = s.hub := rfl
@[simp] theorem store_pending (s : State) (a : Nat) (bs : List Byte) : (s.store a bs).pending = s.pending := rfl

theorem store_wf (s : State) (a : Nat) (bs : List Byte) (h : Memory.wf s.mem = true) : Memory.wf (s.store a bs).mem = true :=
  memPutAll_wf bs s.mem a h

theorem ringWrite_pending (s : State) (n : Nat) (r : Record) : (s.ringWrite n r).pending = s.pending := by
  unfold State.ringWrite; dsimp only; split <;> rfl

theorem ringWrite_wf (s : State) (n : Nat) (r : Record) (h : Memory.wf s.mem = true) : Memory.wf (s.ringWrite n r).mem = true := by
  unfold State.ringWrite; dsimp only; split
  · exact h
  · exact memPutAll_wf _ _ _ h

theorem sysStore_pending (s : State) (r : Record) : (s.sysStore r).pending = s.pending := by
  unfold State.sysStore; dsimp only; split
  · rfl
  · split <;> exact ringWrite_pending _ _ _

theorem sysStore_wf (s : State) (r : Record) (h : Memory.wf s.mem = true) : Memory.wf (s.sysStore r).mem = true := by
  unfold State.sysStore; dsimp only; split
  · exact h
  · split <;> exact ringWrite_wf _ _ _ h

theorem foldl_sysStore (l : List Record) : ∀ s : State, (l.foldl State.sysStore s).pending = s.pending ∧
    (Memory.wf s.mem = true → Memory.wf (l.foldl State.sysStore s).mem = true) := by
  induction l with
  | nil => intro s; exact ⟨rfl, id⟩
  | cons r t ih =>
    intro s
    obtain ⟨h1, h2⟩ := ih (s.sysStore r)
    exact ⟨h1.trans (sysStore_pending s r), fun h => h2 (sysStore_wf s r h)⟩

/-- The end of a command keeps the queue. -/
@[simp] theorem settle_pending (s : State) : s.settle.pending = s.pending := (foldl_sysStore _ _).1

/-- The end of a command keeps the canonical form. -/
theorem settle_wf (s : State) (h : Memory.wf s.mem = true) : Memory.wf s.settle.mem = true := (foldl_sysStore _ _).2 h

/-- With no record formed the end of a command changes nothing. -/
theorem settle_none (s : State) (h : s.hub.sysq = []) : s.settle = s := by
  obtain ⟨hub, mem, pending⟩ := s
  simp only at h
  simp [State.settle, h]
  cases hub
  simp_all

/-- With one record formed the end of a command stores it. -/
theorem settle_one (s : State) (r : Record) (h : s.hub.sysq = [r]) :
    s.settle = State.sysStore { s with hub := { s.hub with sysq := [] } } r := by
  simp [State.settle, h]

theorem bump_sysq (h : Hub) (a l w n : Nat) : (h.bump a l w n).sysq = h.sysq := rfl
theorem setBit_sysq (h : Hub) (a l : Nat) (v : Bool) : (h.setBit a l v).sysq = h.sysq := rfl
theorem setRing_sysq' (h : Hub) (n : Nat) (r : Ring) : (h.setRing n r).sysq = h.sysq := rfl

theorem ringIrq_sysq (h : Hub) (n : Nat) : (h.ringIrq n).sysq = h.sysq := by unfold Hub.ringIrq; split <;> rfl

theorem freeze_sysq (h : Hub) (n : Nat) : (h.freeze n).sysq = h.sysq := by
  unfold Hub.freeze
  dsimp only
  rw [ringIrq_sysq]
  rfl

theorem wrote_sysq (h : Hub) (n k : Nat) : (h.wrote n k).sysq = h.sysq := by
  unfold Hub.wrote
  dsimp only
  split
  · rw [freeze_sysq]; split
    · rw [ringIrq_sysq]; rfl
    · rfl
  · split
    · rw [ringIrq_sysq]; rfl
    · rfl

theorem stage8_sysq (h : Hub) (n : Nat) : (h.stage8 n).1.sysq = h.sysq := by
  unfold Hub.stage8
  dsimp only
  split
  · rfl
  · split
    · exact wrote_sysq h n _
    · split
      · rw [wrote_sysq]; rfl
      · rfl

theorem ringWrite_sysq (s : State) (n : Nat) (r : Record) : (s.ringWrite n r).hub.sysq = s.hub.sysq := by
  unfold State.ringWrite
  dsimp only
  split <;> exact stage8_sysq _ _

theorem sysStore_sysq (s : State) (r : Record) : (s.sysStore r).hub.sysq = s.hub.sysq := by
  unfold State.sysStore
  dsimp only
  split
  · rfl
  · split
    · exact ringWrite_sysq _ _ _
    · exact (bump_sysq _ _ _ _ _).trans (ringWrite_sysq _ _ _)

/-- No SID 0 record waits after the end of a command. -/
theorem settle_sysq (s : State) : s.settle.hub.sysq = [] := by
  have : ∀ (l : List Record) (t : State), (l.foldl State.sysStore t).hub.sysq = t.hub.sysq := by
    intro l
    induction l with
    | nil => intro t; rfl
    | cons r l ih => intro t; exact (ih _).trans (sysStore_sysq t r)
  exact this _ _

/-- A command that changes the hub alone keeps the queue. -/
theorem run_pending (s t : State) (f : Hub → Hub) (h : s.run f = .next t) : t.pending = s.pending := by
  simp only [State.run, Host.Outcome.next.injEq] at h
  subst h
  simp

/-- A command that changes the hub alone keeps the canonical form. -/
theorem run_wf (s t : State) (f : Hub → Hub) (h : s.run f = .next t) (hm : Memory.wf s.mem = true) : Memory.wf t.mem = true := by
  simp only [State.run, Host.Outcome.next.injEq] at h
  subst h
  exact settle_wf _ hm

/-- A command that changes the hub alone and forms no SID 0 record. -/
theorem run_quiet (s : State) (f : Hub → Hub) (h : (f s.hub).sysq = []) : s.run f = .next { s with hub := f s.hub } := by
  simp only [State.run]
  rw [settle_none _ h]
  rfl

end Sys2Proof.Machine
end

