-- ==== Sys2Proof/Laws/State.lean ====
section
/-! SUPPORT. The small laws of State: what a register update leaves, and one lemma for each setter of the hub on the field it sets and on the
fields that most statements read. -/

namespace Sys2Proof.Machine

/-! ### Registers -/

theorem reg_setReg_same (h : Hub) (a : Nat) (v : Word) : (h.setReg a v).reg a = v := tval_tset_same _ _ _ _

theorem reg_setReg_other (h : Hub) (a b : Nat) (v : Word) (hb : b ≠ a) : (h.setReg a v).reg b = h.reg b :=
  tval_tset_other _ _ _ _ _ _ hb

/-! ### Setters -/

@[simp] theorem setReg_sysq (h : Hub) (a : Nat) (v : Word) : (h.setReg a v).sysq = h.sysq := rfl
@[simp] theorem setReg_now (h : Hub) (a : Nat) (v : Word) : (h.setReg a v).now = h.now := rfl
@[simp] theorem setReg_tb (h : Hub) (a : Nat) (v : Word) : (h.setReg a v).tb = h.tb := rfl
@[simp] theorem setReg_held (h : Hub) (a : Nat) (v : Word) : (h.setReg a v).held = h.held := rfl
@[simp] theorem setReg_capt (h : Hub) (a : Nat) (v : Word) : (h.setReg a v).capt = h.capt := rfl
@[simp] theorem setReg_pwr (h : Hub) (a : Nat) (v : Word) : (h.setReg a v).pwr = h.pwr := rfl
@[simp] theorem setReg_readData (h : Hub) (a : Nat) (v : Word) : (h.setReg a v).readData = h.readData := rfl
@[simp] theorem setTb_regs (h : Hub) (x : TimeBase) : (h.setTb x).regs = h.regs := rfl
@[simp] theorem setTb_sysq (h : Hub) (x : TimeBase) : (h.setTb x).sysq = h.sysq := rfl
@[simp] theorem setTb_now (h : Hub) (x : TimeBase) : (h.setTb x).now = h.now := rfl
@[simp] theorem setTb_held (h : Hub) (x : TimeBase) : (h.setTb x).held = h.held := rfl
@[simp] theorem setTb_capt (h : Hub) (x : TimeBase) : (h.setTb x).capt = h.capt := rfl
@[simp] theorem setTb_pwr (h : Hub) (x : TimeBase) : (h.setTb x).pwr = h.pwr := rfl
@[simp] theorem setTb_readData (h : Hub) (x : TimeBase) : (h.setTb x).readData = h.readData := rfl
@[simp] theorem setTb_tb (h : Hub) (x : TimeBase) : (h.setTb x).tb = x := rfl
@[simp] theorem setAng_regs (h : Hub) (x : Angle) : (h.setAng x).regs = h.regs := rfl
@[simp] theorem setAng_sysq (h : Hub) (x : Angle) : (h.setAng x).sysq = h.sysq := rfl
@[simp] theorem setAng_now (h : Hub) (x : Angle) : (h.setAng x).now = h.now := rfl
@[simp] theorem setAng_tb (h : Hub) (x : Angle) : (h.setAng x).tb = h.tb := rfl
@[simp] theorem setAng_held (h : Hub) (x : Angle) : (h.setAng x).held = h.held := rfl
@[simp] theorem setAng_capt (h : Hub) (x : Angle) : (h.setAng x).capt = h.capt := rfl
@[simp] theorem setAng_pwr (h : Hub) (x : Angle) : (h.setAng x).pwr = h.pwr := rfl
@[simp] theorem setAng_readData (h : Hub) (x : Angle) : (h.setAng x).readData = h.readData := rfl
@[simp] theorem setAng_ang (h : Hub) (x : Angle) : (h.setAng x).ang = x := rfl
@[simp] theorem setAge_regs (h : Hub) (x : Ageing) : (h.setAge x).regs = h.regs := rfl
@[simp] theorem setAge_sysq (h : Hub) (x : Ageing) : (h.setAge x).sysq = h.sysq := rfl
@[simp] theorem setAge_now (h : Hub) (x : Ageing) : (h.setAge x).now = h.now := rfl
@[simp] theorem setAge_tb (h : Hub) (x : Ageing) : (h.setAge x).tb = h.tb := rfl
@[simp] theorem setAge_held (h : Hub) (x : Ageing) : (h.setAge x).held = h.held := rfl
@[simp] theorem setAge_capt (h : Hub) (x : Ageing) : (h.setAge x).capt = h.capt := rfl
@[simp] theorem setAge_pwr (h : Hub) (x : Ageing) : (h.setAge x).pwr = h.pwr := rfl
@[simp] theorem setAge_readData (h : Hub) (x : Ageing) : (h.setAge x).readData = h.readData := rfl
@[simp] theorem setAge_age (h : Hub) (x : Ageing) : (h.setAge x).age = x := rfl
@[simp] theorem setPwr_regs (h : Hub) (x : Power) : (h.setPwr x).regs = h.regs := rfl
@[simp] theorem setPwr_sysq (h : Hub) (x : Power) : (h.setPwr x).sysq = h.sysq := rfl
@[simp] theorem setPwr_now (h : Hub) (x : Power) : (h.setPwr x).now = h.now := rfl
@[simp] theorem setPwr_tb (h : Hub) (x : Power) : (h.setPwr x).tb = h.tb := rfl
@[simp] theorem setPwr_held (h : Hub) (x : Power) : (h.setPwr x).held = h.held := rfl
@[simp] theorem setPwr_capt (h : Hub) (x : Power) : (h.setPwr x).capt = h.capt := rfl
@[simp] theorem setPwr_readData (h : Hub) (x : Power) : (h.setPwr x).readData = h.readData := rfl
@[simp] theorem setPwr_pwr (h : Hub) (x : Power) : (h.setPwr x).pwr = x := rfl
@[simp] theorem setPtp_regs (h : Hub) (x : Ptp) : (h.setPtp x).regs = h.regs := rfl
@[simp] theorem setPtp_sysq (h : Hub) (x : Ptp) : (h.setPtp x).sysq = h.sysq := rfl
@[simp] theorem setPtp_now (h : Hub) (x : Ptp) : (h.setPtp x).now = h.now := rfl
@[simp] theorem setPtp_tb (h : Hub) (x : Ptp) : (h.setPtp x).tb = h.tb := rfl
@[simp] theorem setPtp_held (h : Hub) (x : Ptp) : (h.setPtp x).held = h.held := rfl
@[simp] theorem setPtp_capt (h : Hub) (x : Ptp) : (h.setPtp x).capt = h.capt := rfl
@[simp] theorem setPtp_pwr (h : Hub) (x : Ptp) : (h.setPtp x).pwr = h.pwr := rfl
@[simp] theorem setPtp_readData (h : Hub) (x : Ptp) : (h.setPtp x).readData = h.readData := rfl
@[simp] theorem setPtp_ptp (h : Hub) (x : Ptp) : (h.setPtp x).ptp = x := rfl
@[simp] theorem setHl_regs (h : Hub) (x : HostLink) : (h.setHl x).regs = h.regs := rfl
@[simp] theorem setHl_sysq (h : Hub) (x : HostLink) : (h.setHl x).sysq = h.sysq := rfl
@[simp] theorem setHl_now (h : Hub) (x : HostLink) : (h.setHl x).now = h.now := rfl
@[simp] theorem setHl_tb (h : Hub) (x : HostLink) : (h.setHl x).tb = h.tb := rfl
@[simp] theorem setHl_held (h : Hub) (x : HostLink) : (h.setHl x).held = h.held := rfl
@[simp] theorem setHl_capt (h : Hub) (x : HostLink) : (h.setHl x).capt = h.capt := rfl
@[simp] theorem setHl_pwr (h : Hub) (x : HostLink) : (h.setHl x).pwr = h.pwr := rfl
@[simp] theorem setHl_readData (h : Hub) (x : HostLink) : (h.setHl x).readData = h.readData := rfl
@[simp] theorem setHl_hl (h : Hub) (x : HostLink) : (h.setHl x).hl = x := rfl
@[simp] theorem setSec_regs (h : Hub) (x : Sec) : (h.setSec x).regs = h.regs := rfl
@[simp] theorem setSec_sysq (h : Hub) (x : Sec) : (h.setSec x).sysq = h.sysq := rfl
@[simp] theorem setSec_now (h : Hub) (x : Sec) : (h.setSec x).now = h.now := rfl
@[simp] theorem setSec_tb (h : Hub) (x : Sec) : (h.setSec x).tb = h.tb := rfl
@[simp] theorem setSec_held (h : Hub) (x : Sec) : (h.setSec x).held = h.held := rfl
@[simp] theorem setSec_capt (h : Hub) (x : Sec) : (h.setSec x).capt = h.capt := rfl
@[simp] theorem setSec_pwr (h : Hub) (x : Sec) : (h.setSec x).pwr = h.pwr := rfl
@[simp] theorem setSec_readData (h : Hub) (x : Sec) : (h.setSec x).readData = h.readData := rfl
@[simp] theorem setSec_sec (h : Hub) (x : Sec) : (h.setSec x).sec = x := rfl
@[simp] theorem setTap_regs (h : Hub) (x : Tap) : (h.setTap x).regs = h.regs := rfl
@[simp] theorem setTap_sysq (h : Hub) (x : Tap) : (h.setTap x).sysq = h.sysq := rfl
@[simp] theorem setTap_now (h : Hub) (x : Tap) : (h.setTap x).now = h.now := rfl
@[simp] theorem setTap_tb (h : Hub) (x : Tap) : (h.setTap x).tb = h.tb := rfl
@[simp] theorem setTap_held (h : Hub) (x : Tap) : (h.setTap x).held = h.held := rfl
@[simp] theorem setTap_capt (h : Hub) (x : Tap) : (h.setTap x).capt = h.capt := rfl
@[simp] theorem setTap_pwr (h : Hub) (x : Tap) : (h.setTap x).pwr = h.pwr := rfl
@[simp] theorem setTap_readData (h : Hub) (x : Tap) : (h.setTap x).readData = h.readData := rfl
@[simp] theorem setTap_tap (h : Hub) (x : Tap) : (h.setTap x).tap = x := rfl
@[simp] theorem setStrm_regs (h : Hub) (n : Nat) (x : Stream) : (h.setStrm n x).regs = h.regs := rfl
@[simp] theorem setStrm_sysq (h : Hub) (n : Nat) (x : Stream) : (h.setStrm n x).sysq = h.sysq := rfl
@[simp] theorem setStrm_now (h : Hub) (n : Nat) (x : Stream) : (h.setStrm n x).now = h.now := rfl
@[simp] theorem setStrm_tb (h : Hub) (n : Nat) (x : Stream) : (h.setStrm n x).tb = h.tb := rfl
@[simp] theorem setStrm_held (h : Hub) (n : Nat) (x : Stream) : (h.setStrm n x).held = h.held := rfl
@[simp] theorem setStrm_capt (h : Hub) (n : Nat) (x : Stream) : (h.setStrm n x).capt = h.capt := rfl
@[simp] theorem setStrm_pwr (h : Hub) (n : Nat) (x : Stream) : (h.setStrm n x).pwr = h.pwr := rfl
@[simp] theorem setStrm_readData (h : Hub) (n : Nat) (x : Stream) : (h.setStrm n x).readData = h.readData := rfl
@[simp] theorem setEq_regs (h : Hub) (n : Nat) (x : EventQueue) : (h.setEq n x).regs = h.regs := rfl
@[simp] theorem setEq_sysq (h : Hub) (n : Nat) (x : EventQueue) : (h.setEq n x).sysq = h.sysq := rfl
@[simp] theorem setEq_now (h : Hub) (n : Nat) (x : EventQueue) : (h.setEq n x).now = h.now := rfl
@[simp] theorem setEq_tb (h : Hub) (n : Nat) (x : EventQueue) : (h.setEq n x).tb = h.tb := rfl
@[simp] theorem setEq_held (h : Hub) (n : Nat) (x : EventQueue) : (h.setEq n x).held = h.held := rfl
@[simp] theorem setEq_capt (h : Hub) (n : Nat) (x : EventQueue) : (h.setEq n x).capt = h.capt := rfl
@[simp] theorem setEq_pwr (h : Hub) (n : Nat) (x : EventQueue) : (h.setEq n x).pwr = h.pwr := rfl
@[simp] theorem setEq_readData (h : Hub) (n : Nat) (x : EventQueue) : (h.setEq n x).readData = h.readData := rfl
@[simp] theorem setRing_regs (h : Hub) (n : Nat) (x : Ring) : (h.setRing n x).regs = h.regs := rfl
@[simp] theorem setRing_sysq (h : Hub) (n : Nat) (x : Ring) : (h.setRing n x).sysq = h.sysq := rfl
@[simp] theorem setRing_now (h : Hub) (n : Nat) (x : Ring) : (h.setRing n x).now = h.now := rfl
@[simp] theorem setRing_tb (h : Hub) (n : Nat) (x : Ring) : (h.setRing n x).tb = h.tb := rfl
@[simp] theorem setRing_held (h : Hub) (n : Nat) (x : Ring) : (h.setRing n x).held = h.held := rfl
@[simp] theorem setRing_capt (h : Hub) (n : Nat) (x : Ring) : (h.setRing n x).capt = h.capt := rfl
@[simp] theorem setRing_pwr (h : Hub) (n : Nat) (x : Ring) : (h.setRing n x).pwr = h.pwr := rfl
@[simp] theorem setRing_readData (h : Hub) (n : Nat) (x : Ring) : (h.setRing n x).readData = h.readData := rfl
@[simp] theorem setTxe_regs (h : Hub) (n : Nat) (x : TxEntry) : (h.setTxe n x).regs = h.regs := rfl
@[simp] theorem setTxe_sysq (h : Hub) (n : Nat) (x : TxEntry) : (h.setTxe n x).sysq = h.sysq := rfl
@[simp] theorem setTxe_now (h : Hub) (n : Nat) (x : TxEntry) : (h.setTxe n x).now = h.now := rfl
@[simp] theorem setTxe_tb (h : Hub) (n : Nat) (x : TxEntry) : (h.setTxe n x).tb = h.tb := rfl
@[simp] theorem setTxe_held (h : Hub) (n : Nat) (x : TxEntry) : (h.setTxe n x).held = h.held := rfl
@[simp] theorem setTxe_capt (h : Hub) (n : Nat) (x : TxEntry) : (h.setTxe n x).capt = h.capt := rfl
@[simp] theorem setTxe_pwr (h : Hub) (n : Nat) (x : TxEntry) : (h.setTxe n x).pwr = h.pwr := rfl
@[simp] theorem setTxe_readData (h : Hub) (n : Nat) (x : TxEntry) : (h.setTxe n x).readData = h.readData := rfl
@[simp] theorem setPrb_regs (h : Hub) (n : Nat) (x : Probe) : (h.setPrb n x).regs = h.regs := rfl
@[simp] theorem setPrb_sysq (h : Hub) (n : Nat) (x : Probe) : (h.setPrb n x).sysq = h.sysq := rfl
@[simp] theorem setPrb_now (h : Hub) (n : Nat) (x : Probe) : (h.setPrb n x).now = h.now := rfl
@[simp] theorem setPrb_tb (h : Hub) (n : Nat) (x : Probe) : (h.setPrb n x).tb = h.tb := rfl
@[simp] theorem setPrb_held (h : Hub) (n : Nat) (x : Probe) : (h.setPrb n x).held = h.held := rfl
@[simp] theorem setPrb_capt (h : Hub) (n : Nat) (x : Probe) : (h.setPrb n x).capt = h.capt := rfl
@[simp] theorem setPrb_pwr (h : Hub) (n : Nat) (x : Probe) : (h.setPrb n x).pwr = h.pwr := rfl
@[simp] theorem setPrb_readData (h : Hub) (n : Nat) (x : Probe) : (h.setPrb n x).readData = h.readData := rfl
@[simp] theorem setPq_regs (h : Hub) (n : Nat) (x : PortQueue) : (h.setPq n x).regs = h.regs := rfl
@[simp] theorem setPq_sysq (h : Hub) (n : Nat) (x : PortQueue) : (h.setPq n x).sysq = h.sysq := rfl
@[simp] theorem setPq_now (h : Hub) (n : Nat) (x : PortQueue) : (h.setPq n x).now = h.now := rfl
@[simp] theorem setPq_tb (h : Hub) (n : Nat) (x : PortQueue) : (h.setPq n x).tb = h.tb := rfl
@[simp] theorem setPq_held (h : Hub) (n : Nat) (x : PortQueue) : (h.setPq n x).held = h.held := rfl
@[simp] theorem setPq_capt (h : Hub) (n : Nat) (x : PortQueue) : (h.setPq n x).capt = h.capt := rfl
@[simp] theorem setPq_pwr (h : Hub) (n : Nat) (x : PortQueue) : (h.setPq n x).pwr = h.pwr := rfl
@[simp] theorem setPq_readData (h : Hub) (n : Nat) (x : PortQueue) : (h.setPq n x).readData = h.readData := rfl
@[simp] theorem setSpt_regs (h : Hub) (n : Nat) (x : SerialPort) : (h.setSpt n x).regs = h.regs := rfl
@[simp] theorem setSpt_sysq (h : Hub) (n : Nat) (x : SerialPort) : (h.setSpt n x).sysq = h.sysq := rfl
@[simp] theorem setSpt_now (h : Hub) (n : Nat) (x : SerialPort) : (h.setSpt n x).now = h.now := rfl
@[simp] theorem setSpt_tb (h : Hub) (n : Nat) (x : SerialPort) : (h.setSpt n x).tb = h.tb := rfl
@[simp] theorem setSpt_held (h : Hub) (n : Nat) (x : SerialPort) : (h.setSpt n x).held = h.held := rfl
@[simp] theorem setSpt_capt (h : Hub) (n : Nat) (x : SerialPort) : (h.setSpt n x).capt = h.capt := rfl
@[simp] theorem setSpt_pwr (h : Hub) (n : Nat) (x : SerialPort) : (h.setSpt n x).pwr = h.pwr := rfl
@[simp] theorem setSpt_readData (h : Hub) (n : Nat) (x : SerialPort) : (h.setSpt n x).readData = h.readData := rfl
@[simp] theorem setTwt_regs (h : Hub) (n : Nat) (x : TwoWirePort) : (h.setTwt n x).regs = h.regs := rfl
@[simp] theorem setTwt_sysq (h : Hub) (n : Nat) (x : TwoWirePort) : (h.setTwt n x).sysq = h.sysq := rfl
@[simp] theorem setTwt_now (h : Hub) (n : Nat) (x : TwoWirePort) : (h.setTwt n x).now = h.now := rfl
@[simp] theorem setTwt_tb (h : Hub) (n : Nat) (x : TwoWirePort) : (h.setTwt n x).tb = h.tb := rfl
@[simp] theorem setTwt_held (h : Hub) (n : Nat) (x : TwoWirePort) : (h.setTwt n x).held = h.held := rfl
@[simp] theorem setTwt_capt (h : Hub) (n : Nat) (x : TwoWirePort) : (h.setTwt n x).capt = h.capt := rfl
@[simp] theorem setTwt_pwr (h : Hub) (n : Nat) (x : TwoWirePort) : (h.setTwt n x).pwr = h.pwr := rfl
@[simp] theorem setTwt_readData (h : Hub) (n : Nat) (x : TwoWirePort) : (h.setTwt n x).readData = h.readData := rfl
@[simp] theorem setRcg_regs (h : Hub) (n : Nat) (x : Recog) : (h.setRcg n x).regs = h.regs := rfl
@[simp] theorem setRcg_sysq (h : Hub) (n : Nat) (x : Recog) : (h.setRcg n x).sysq = h.sysq := rfl
@[simp] theorem setRcg_now (h : Hub) (n : Nat) (x : Recog) : (h.setRcg n x).now = h.now := rfl
@[simp] theorem setRcg_tb (h : Hub) (n : Nat) (x : Recog) : (h.setRcg n x).tb = h.tb := rfl
@[simp] theorem setRcg_held (h : Hub) (n : Nat) (x : Recog) : (h.setRcg n x).held = h.held := rfl
@[simp] theorem setRcg_capt (h : Hub) (n : Nat) (x : Recog) : (h.setRcg n x).capt = h.capt := rfl
@[simp] theorem setRcg_pwr (h : Hub) (n : Nat) (x : Recog) : (h.setRcg n x).pwr = h.pwr := rfl
@[simp] theorem setRcg_readData (h : Hub) (n : Nat) (x : Recog) : (h.setRcg n x).readData = h.readData := rfl
@[simp] theorem setEng_regs (h : Hub) (n : Nat) (x : Engine) : (h.setEng n x).regs = h.regs := rfl
@[simp] theorem setEng_sysq (h : Hub) (n : Nat) (x : Engine) : (h.setEng n x).sysq = h.sysq := rfl
@[simp] theorem setEng_now (h : Hub) (n : Nat) (x : Engine) : (h.setEng n x).now = h.now := rfl
@[simp] theorem setEng_tb (h : Hub) (n : Nat) (x : Engine) : (h.setEng n x).tb = h.tb := rfl
@[simp] theorem setEng_held (h : Hub) (n : Nat) (x : Engine) : (h.setEng n x).held = h.held := rfl
@[simp] theorem setEng_capt (h : Hub) (n : Nat) (x : Engine) : (h.setEng n x).capt = h.capt := rfl
@[simp] theorem setEng_pwr (h : Hub) (n : Nat) (x : Engine) : (h.setEng n x).pwr = h.pwr := rfl
@[simp] theorem setEng_readData (h : Hub) (n : Nat) (x : Engine) : (h.setEng n x).readData = h.readData := rfl
@[simp] theorem setShd_regs (h : Hub) (n : Nat) (x : Shadow) : (h.setShd n x).regs = h.regs := rfl
@[simp] theorem setShd_sysq (h : Hub) (n : Nat) (x : Shadow) : (h.setShd n x).sysq = h.sysq := rfl
@[simp] theorem setShd_now (h : Hub) (n : Nat) (x : Shadow) : (h.setShd n x).now = h.now := rfl
@[simp] theorem setShd_tb (h : Hub) (n : Nat) (x : Shadow) : (h.setShd n x).tb = h.tb := rfl
@[simp] theorem setShd_held (h : Hub) (n : Nat) (x : Shadow) : (h.setShd n x).held = h.held := rfl
@[simp] theorem setShd_capt (h : Hub) (n : Nat) (x : Shadow) : (h.setShd n x).capt = h.capt := rfl
@[simp] theorem setShd_pwr (h : Hub) (n : Nat) (x : Shadow) : (h.setShd n x).pwr = h.pwr := rfl
@[simp] theorem setShd_readData (h : Hub) (n : Nat) (x : Shadow) : (h.setShd n x).readData = h.readData := rfl
@[simp] theorem setMac_regs (h : Hub) (n : Nat) (x : Mac) : (h.setMac n x).regs = h.regs := rfl
@[simp] theorem setMac_sysq (h : Hub) (n : Nat) (x : Mac) : (h.setMac n x).sysq = h.sysq := rfl
@[simp] theorem setMac_now (h : Hub) (n : Nat) (x : Mac) : (h.setMac n x).now = h.now := rfl
@[simp] theorem setMac_tb (h : Hub) (n : Nat) (x : Mac) : (h.setMac n x).tb = h.tb := rfl
@[simp] theorem setMac_held (h : Hub) (n : Nat) (x : Mac) : (h.setMac n x).held = h.held := rfl
@[simp] theorem setMac_capt (h : Hub) (n : Nat) (x : Mac) : (h.setMac n x).capt = h.capt := rfl
@[simp] theorem setMac_pwr (h : Hub) (n : Nat) (x : Mac) : (h.setMac n x).pwr = h.pwr := rfl
@[simp] theorem setMac_readData (h : Hub) (n : Nat) (x : Mac) : (h.setMac n x).readData = h.readData := rfl
@[simp] theorem setXp_regs (h : Hub) (n : Nat) (x : Transport) : (h.setXp n x).regs = h.regs := rfl
@[simp] theorem setXp_sysq (h : Hub) (n : Nat) (x : Transport) : (h.setXp n x).sysq = h.sysq := rfl
@[simp] theorem setXp_now (h : Hub) (n : Nat) (x : Transport) : (h.setXp n x).now = h.now := rfl
@[simp] theorem setXp_tb (h : Hub) (n : Nat) (x : Transport) : (h.setXp n x).tb = h.tb := rfl
@[simp] theorem setXp_held (h : Hub) (n : Nat) (x : Transport) : (h.setXp n x).held = h.held := rfl
@[simp] theorem setXp_capt (h : Hub) (n : Nat) (x : Transport) : (h.setXp n x).capt = h.capt := rfl
@[simp] theorem setXp_pwr (h : Hub) (n : Nat) (x : Transport) : (h.setXp n x).pwr = h.pwr := rfl
@[simp] theorem setXp_readData (h : Hub) (n : Nat) (x : Transport) : (h.setXp n x).readData = h.readData := rfl
@[simp] theorem setHsl_regs (h : Hub) (n : Nat) (x : HSlice) : (h.setHsl n x).regs = h.regs := rfl
@[simp] theorem setHsl_sysq (h : Hub) (n : Nat) (x : HSlice) : (h.setHsl n x).sysq = h.sysq := rfl
@[simp] theorem setHsl_now (h : Hub) (n : Nat) (x : HSlice) : (h.setHsl n x).now = h.now := rfl
@[simp] theorem setHsl_tb (h : Hub) (n : Nat) (x : HSlice) : (h.setHsl n x).tb = h.tb := rfl
@[simp] theorem setHsl_held (h : Hub) (n : Nat) (x : HSlice) : (h.setHsl n x).held = h.held := rfl
@[simp] theorem setHsl_capt (h : Hub) (n : Nat) (x : HSlice) : (h.setHsl n x).capt = h.capt := rfl
@[simp] theorem setHsl_pwr (h : Hub) (n : Nat) (x : HSlice) : (h.setHsl n x).pwr = h.pwr := rfl
@[simp] theorem setHsl_readData (h : Hub) (n : Nat) (x : HSlice) : (h.setHsl n x).readData = h.readData := rfl
@[simp] theorem setMsl_regs (h : Hub) (n : Nat) (x : MSlice) : (h.setMsl n x).regs = h.regs := rfl
@[simp] theorem setMsl_sysq (h : Hub) (n : Nat) (x : MSlice) : (h.setMsl n x).sysq = h.sysq := rfl
@[simp] theorem setMsl_now (h : Hub) (n : Nat) (x : MSlice) : (h.setMsl n x).now = h.now := rfl
@[simp] theorem setMsl_tb (h : Hub) (n : Nat) (x : MSlice) : (h.setMsl n x).tb = h.tb := rfl
@[simp] theorem setMsl_held (h : Hub) (n : Nat) (x : MSlice) : (h.setMsl n x).held = h.held := rfl
@[simp] theorem setMsl_capt (h : Hub) (n : Nat) (x : MSlice) : (h.setMsl n x).capt = h.capt := rfl
@[simp] theorem setMsl_pwr (h : Hub) (n : Nat) (x : MSlice) : (h.setMsl n x).pwr = h.pwr := rfl
@[simp] theorem setMsl_readData (h : Hub) (n : Nat) (x : MSlice) : (h.setMsl n x).readData = h.readData := rfl
@[simp] theorem setRsl_regs (h : Hub) (n : Nat) (x : Rsmp) : (h.setRsl n x).regs = h.regs := rfl
@[simp] theorem setRsl_sysq (h : Hub) (n : Nat) (x : Rsmp) : (h.setRsl n x).sysq = h.sysq := rfl
@[simp] theorem setRsl_now (h : Hub) (n : Nat) (x : Rsmp) : (h.setRsl n x).now = h.now := rfl
@[simp] theorem setRsl_tb (h : Hub) (n : Nat) (x : Rsmp) : (h.setRsl n x).tb = h.tb := rfl
@[simp] theorem setRsl_held (h : Hub) (n : Nat) (x : Rsmp) : (h.setRsl n x).held = h.held := rfl
@[simp] theorem setRsl_capt (h : Hub) (n : Nat) (x : Rsmp) : (h.setRsl n x).capt = h.capt := rfl
@[simp] theorem setRsl_pwr (h : Hub) (n : Nat) (x : Rsmp) : (h.setRsl n x).pwr = h.pwr := rfl
@[simp] theorem setRsl_readData (h : Hub) (n : Nat) (x : Rsmp) : (h.setRsl n x).readData = h.readData := rfl
@[simp] theorem setGrp_regs (h : Hub) (n : Nat) (x : Group) : (h.setGrp n x).regs = h.regs := rfl
@[simp] theorem setGrp_sysq (h : Hub) (n : Nat) (x : Group) : (h.setGrp n x).sysq = h.sysq := rfl
@[simp] theorem setGrp_now (h : Hub) (n : Nat) (x : Group) : (h.setGrp n x).now = h.now := rfl
@[simp] theorem setGrp_tb (h : Hub) (n : Nat) (x : Group) : (h.setGrp n x).tb = h.tb := rfl
@[simp] theorem setGrp_held (h : Hub) (n : Nat) (x : Group) : (h.setGrp n x).held = h.held := rfl
@[simp] theorem setGrp_capt (h : Hub) (n : Nat) (x : Group) : (h.setGrp n x).capt = h.capt := rfl
@[simp] theorem setGrp_pwr (h : Hub) (n : Nat) (x : Group) : (h.setGrp n x).pwr = h.pwr := rfl
@[simp] theorem setGrp_readData (h : Hub) (n : Nat) (x : Group) : (h.setGrp n x).readData = h.readData := rfl
@[simp] theorem setCrank_regs (h : Hub) (x : Crank) : (h.setCrank x).regs = h.regs := rfl
@[simp] theorem setCrank_sysq (h : Hub) (x : Crank) : (h.setCrank x).sysq = h.sysq := rfl
@[simp] theorem setCrank_now (h : Hub) (x : Crank) : (h.setCrank x).now = h.now := rfl
@[simp] theorem setCrank_tb (h : Hub) (x : Crank) : (h.setCrank x).tb = h.tb := rfl
@[simp] theorem setCrank_held (h : Hub) (x : Crank) : (h.setCrank x).held = h.held := rfl
@[simp] theorem setCrank_capt (h : Hub) (x : Crank) : (h.setCrank x).capt = h.capt := rfl
@[simp] theorem setCrank_pwr (h : Hub) (x : Crank) : (h.setCrank x).pwr = h.pwr := rfl
@[simp] theorem setCrank_readData (h : Hub) (x : Crank) : (h.setCrank x).readData = h.readData := rfl
@[simp] theorem setCrank_crank (h : Hub) (x : Crank) : (h.setCrank x).ang.crank = x := rfl
@[simp] theorem setDist_regs (h : Hub) (n : Nat) (x : Dist) : (h.setDist n x).regs = h.regs := rfl
@[simp] theorem setDist_sysq (h : Hub) (n : Nat) (x : Dist) : (h.setDist n x).sysq = h.sysq := rfl
@[simp] theorem setDist_now (h : Hub) (n : Nat) (x : Dist) : (h.setDist n x).now = h.now := rfl
@[simp] theorem setDist_tb (h : Hub) (n : Nat) (x : Dist) : (h.setDist n x).tb = h.tb := rfl
@[simp] theorem setDist_held (h : Hub) (n : Nat) (x : Dist) : (h.setDist n x).held = h.held := rfl
@[simp] theorem setDist_capt (h : Hub) (n : Nat) (x : Dist) : (h.setDist n x).capt = h.capt := rfl
@[simp] theorem setDist_pwr (h : Hub) (n : Nat) (x : Dist) : (h.setDist n x).pwr = h.pwr := rfl
@[simp] theorem setDist_readData (h : Hub) (n : Nat) (x : Dist) : (h.setDist n x).readData = h.readData := rfl
@[simp] theorem setAse_regs (h : Hub) (n : Nat) (x : Ase) : (h.setAse n x).regs = h.regs := rfl
@[simp] theorem setAse_sysq (h : Hub) (n : Nat) (x : Ase) : (h.setAse n x).sysq = h.sysq := rfl
@[simp] theorem setAse_now (h : Hub) (n : Nat) (x : Ase) : (h.setAse n x).now = h.now := rfl
@[simp] theorem setAse_tb (h : Hub) (n : Nat) (x : Ase) : (h.setAse n x).tb = h.tb := rfl
@[simp] theorem setAse_held (h : Hub) (n : Nat) (x : Ase) : (h.setAse n x).held = h.held := rfl
@[simp] theorem setAse_capt (h : Hub) (n : Nat) (x : Ase) : (h.setAse n x).capt = h.capt := rfl
@[simp] theorem setAse_pwr (h : Hub) (n : Nat) (x : Ase) : (h.setAse n x).pwr = h.pwr := rfl
@[simp] theorem setAse_readData (h : Hub) (n : Nat) (x : Ase) : (h.setAse n x).readData = h.readData := rfl
@[simp] theorem setPair_regs (h : Hub) (f : Shadow → Shadow) : (h.setPair f).regs = h.regs := rfl
@[simp] theorem setPair_sysq (h : Hub) (f : Shadow → Shadow) : (h.setPair f).sysq = h.sysq := rfl
@[simp] theorem setPair_now (h : Hub) (f : Shadow → Shadow) : (h.setPair f).now = h.now := rfl
@[simp] theorem setPair_tb (h : Hub) (f : Shadow → Shadow) : (h.setPair f).tb = h.tb := rfl
@[simp] theorem setPair_held (h : Hub) (f : Shadow → Shadow) : (h.setPair f).held = h.held := rfl
@[simp] theorem setPair_capt (h : Hub) (f : Shadow → Shadow) : (h.setPair f).capt = h.capt := rfl
@[simp] theorem setPair_pwr (h : Hub) (f : Shadow → Shadow) : (h.setPair f).pwr = h.pwr := rfl
@[simp] theorem setPair_readData (h : Hub) (f : Shadow → Shadow) : (h.setPair f).readData = h.readData := rfl

/-! ### What was set is what is read -/

@[simp] theorem setStrm_strm_same (h : Hub) (n : Nat) (x : Stream) : (h.setStrm n x).strm n = x := tval_tset_same _ _ _ _
theorem setStrm_strm_other (h : Hub) (n m : Nat) (x : Stream) (hm : m ≠ n) : (h.setStrm n x).strm m = h.strm m := tval_tset_other _ _ _ _ _ _ hm
@[simp] theorem setEng_eng_same (h : Hub) (n : Nat) (x : Engine) : (h.setEng n x).eng n = x := tval_tset_same _ _ _ _
theorem setEng_eng_other (h : Hub) (n m : Nat) (x : Engine) (hm : m ≠ n) : (h.setEng n x).eng m = h.eng m := tval_tset_other _ _ _ _ _ _ hm
@[simp] theorem setRcg_rcg_same (h : Hub) (n : Nat) (x : Recog) : (h.setRcg n x).rcg n = x := tval_tset_same _ _ _ _
theorem setRcg_rcg_other (h : Hub) (n m : Nat) (x : Recog) (hm : m ≠ n) : (h.setRcg n x).rcg m = h.rcg m := tval_tset_other _ _ _ _ _ _ hm
@[simp] theorem setRing_ring_same (h : Hub) (n : Nat) (x : Ring) : (h.setRing n x).ring n = x := tval_tset_same _ _ _ _
theorem setRing_ring_other (h : Hub) (n m : Nat) (x : Ring) (hm : m ≠ n) : (h.setRing n x).ring m = h.ring m := tval_tset_other _ _ _ _ _ _ hm
@[simp] theorem setTxe_txe_same (h : Hub) (n : Nat) (x : TxEntry) : (h.setTxe n x).txe n = x := tval_tset_same _ _ _ _
theorem setTxe_txe_other (h : Hub) (n m : Nat) (x : TxEntry) (hm : m ≠ n) : (h.setTxe n x).txe m = h.txe m := tval_tset_other _ _ _ _ _ _ hm
@[simp] theorem setPrb_prb_same (h : Hub) (n : Nat) (x : Probe) : (h.setPrb n x).prb n = x := tval_tset_same _ _ _ _
theorem setPrb_prb_other (h : Hub) (n m : Nat) (x : Probe) (hm : m ≠ n) : (h.setPrb n x).prb m = h.prb m := tval_tset_other _ _ _ _ _ _ hm
@[simp] theorem setPq_pq_same (h : Hub) (n : Nat) (x : PortQueue) : (h.setPq n x).pq n = x := tval_tset_same _ _ _ _
theorem setPq_pq_other (h : Hub) (n m : Nat) (x : PortQueue) (hm : m ≠ n) : (h.setPq n x).pq m = h.pq m := tval_tset_other _ _ _ _ _ _ hm
@[simp] theorem setSpt_spt_same (h : Hub) (n : Nat) (x : SerialPort) : (h.setSpt n x).spt n = x := tval_tset_same _ _ _ _
theorem setSpt_spt_other (h : Hub) (n m : Nat) (x : SerialPort) (hm : m ≠ n) : (h.setSpt n x).spt m = h.spt m := tval_tset_other _ _ _ _ _ _ hm
@[simp] theorem setTwt_twt_same (h : Hub) (n : Nat) (x : TwoWirePort) : (h.setTwt n x).twt n = x := tval_tset_same _ _ _ _
theorem setTwt_twt_other (h : Hub) (n m : Nat) (x : TwoWirePort) (hm : m ≠ n) : (h.setTwt n x).twt m = h.twt m := tval_tset_other _ _ _ _ _ _ hm
@[simp] theorem setMac_mac_same (h : Hub) (n : Nat) (x : Mac) : (h.setMac n x).mac n = x := tval_tset_same _ _ _ _
theorem setMac_mac_other (h : Hub) (n m : Nat) (x : Mac) (hm : m ≠ n) : (h.setMac n x).mac m = h.mac m := tval_tset_other _ _ _ _ _ _ hm
@[simp] theorem setXp_xp_same (h : Hub) (n : Nat) (x : Transport) : (h.setXp n x).xp n = x := tval_tset_same _ _ _ _
theorem setXp_xp_other (h : Hub) (n m : Nat) (x : Transport) (hm : m ≠ n) : (h.setXp n x).xp m = h.xp m := tval_tset_other _ _ _ _ _ _ hm
@[simp] theorem setHsl_hsl_same (h : Hub) (n : Nat) (x : HSlice) : (h.setHsl n x).hsl n = x := tval_tset_same _ _ _ _
theorem setHsl_hsl_other (h : Hub) (n m : Nat) (x : HSlice) (hm : m ≠ n) : (h.setHsl n x).hsl m = h.hsl m := tval_tset_other _ _ _ _ _ _ hm
@[simp] theorem setMsl_msl_same (h : Hub) (n : Nat) (x : MSlice) : (h.setMsl n x).msl n = x := tval_tset_same _ _ _ _
theorem setMsl_msl_other (h : Hub) (n m : Nat) (x : MSlice) (hm : m ≠ n) : (h.setMsl n x).msl m = h.msl m := tval_tset_other _ _ _ _ _ _ hm
@[simp] theorem setRsl_rsl_same (h : Hub) (n : Nat) (x : Rsmp) : (h.setRsl n x).rsl n = x := tval_tset_same _ _ _ _
theorem setRsl_rsl_other (h : Hub) (n m : Nat) (x : Rsmp) (hm : m ≠ n) : (h.setRsl n x).rsl m = h.rsl m := tval_tset_other _ _ _ _ _ _ hm
@[simp] theorem setGrp_grp_same (h : Hub) (n : Nat) (x : Group) : (h.setGrp n x).grp n = x := tval_tset_same _ _ _ _
theorem setGrp_grp_other (h : Hub) (n m : Nat) (x : Group) (hm : m ≠ n) : (h.setGrp n x).grp m = h.grp m := tval_tset_other _ _ _ _ _ _ hm
@[simp] theorem setShd_shd_same (h : Hub) (n : Nat) (x : Shadow) : (h.setShd n x).shd n = x := tval_tset_same _ _ _ _
theorem setShd_shd_other (h : Hub) (n m : Nat) (x : Shadow) (hm : m ≠ n) : (h.setShd n x).shd m = h.shd m := tval_tset_other _ _ _ _ _ _ hm
@[simp] theorem setDist_dist_same (h : Hub) (n : Nat) (x : Dist) : (h.setDist n x).dist n = x := tval_tset_same _ _ _ _
theorem setDist_dist_other (h : Hub) (n m : Nat) (x : Dist) (hm : m ≠ n) : (h.setDist n x).dist m = h.dist m := tval_tset_other _ _ _ _ _ _ hm
@[simp] theorem setAse_ase_same (h : Hub) (n : Nat) (x : Ase) : (h.setAse n x).ase n = x := tval_tset_same _ _ _ _
theorem setAse_ase_other (h : Hub) (n m : Nat) (x : Ase) (hm : m ≠ n) : (h.setAse n x).ase m = h.ase m := tval_tset_other _ _ _ _ _ _ hm

end Sys2Proof.Machine
end

