-- ==== Sys2Proof/Tests/Slice0.lean ====
section
/-! SUPPORT. Tests: an ill-formed term for each check of WellFormed, states that meet the hypotheses of the statements clause by clause at the
ends of their ranges, and single steps whose outcome the spec gives. -/

namespace Sys2Proof.Tests

open Sys2Proof Sys2Proof.Machine

/-! ### Small states -/

abbrev h0 : Hub := Hub.reset

/-- The machine after reset with another hub. -/
abbrev on (h : Hub) : State := { State.reset with hub := h }

/-- A state with no SID 0 record waiting has a property. -/
abbrev Meets (h : Hub) (p : State → Prop) : Prop := h.sysq = [] ∧ p (on h)

/-- A record of a stream with a priority and, marked as an event, a code. -/
abbrev rec0 : Record := { ts := 0, pos := 0, sid := 1, tsf := 0, flg := 8, pay := 0 }

/-- The outcome of a command, or the state before it. -/
abbrev after (c : Instr) (s : State) : State :=
  match exec c s with
  | .next t => t
  | .fault _ => s
  | .refused _ => s

/-! ### States that meet the hypotheses: time base, queues, rings -/

abbrev locked : Hub := { h0 with tb.lock := true }

theorem witness_StepTakesFront : ∃ s : State, s.pending = [Instr.tbArm, .halfwrap] := ⟨{ State.reset with pending := [.tbArm, .halfwrap] }, rfl⟩

theorem witness_IdleStep :
    Meets h0 (fun s => s.pending = [] ∧ s.hub.outq = [] ∧ s.hub.tb.onCrystal = false ∧ s.hub.tb.holdover = false ∧ s.hub.tb.lock = false) ∧
    Meets { locked with tb.acc := 0xFFFFFFFF00000000 } (fun s => s.hub.tb.lock = true ∧ s.hub.tb.setPend = none ∧ s.hub.tb.acc.msb = true ∧
      (s.hub.tb.acc + s.hub.tinc).msb = false) ∧
    Meets { locked with tb.acc := 0x7FFFFFFF00000000 } (fun s => s.hub.tb.setPend = none ∧ s.hub.tb.acc.msb = false ∧
      (s.hub.tb.acc + s.hub.tinc).msb = true) ∧
    Meets { locked with tb.setPend := some 7 } (fun s => s.hub.tb.setPend = some 7 ∧ s.hub.tb.setDone = false) ∧
    Meets { locked with tb.commitPend := true, tb.wrapDue := true, tb.halfDue := true } (fun s => s.hub.tb.commitPend = true ∧ s.hub.tb.wrapDue = true ∧
      s.hub.tb.halfDue = true) ∧
    Meets { h0 with tb.holdover := true } (fun s => s.hub.tb.onCrystal = false ∧ s.hub.tb.holdover = true ∧ s.hub.tb.lock = false) ∧
    Meets { h0 with tb.onCrystal := true } (fun s => s.hub.tb.onCrystal = true ∧ s.hub.tb.lock = false) := by decide

theorem witness_StepKeepsSound : Safety.sound State.reset ∧ ∃ t, step State.reset = .next t := ⟨by unfold Safety.sound; decide, _, rfl⟩

theorem witness_CalendarCommands :
    Meets h0 (fun s => s.hub.tb.epochValid = false ∧ s.hub.tb.armed = false ∧ s.hub.mbonik = false) ∧
    Meets { h0 with tb.armed := true } (fun s => s.hub.tb.armed = true ∧ s.hub.tb.wrapDue = false) ∧
    Meets { h0 with tb.armed := true, tb.wrapDue := true } (fun s => s.hub.tb.wrapDue = true) ∧
    Meets { h0 with mbonik := true, tb.epochValid := true } (fun s => s.hub.mbonik = true ∧ s.hub.tb.epochValid = true ∧ s.hub.tb.armed = false) := by
  decide

theorem witness_TimeBaseEvents :
    Meets h0 (fun s => s.hub.pwr.state < 3 ∧ s.hub.ptp.state ≠ 3 ∧ s.hub.tb.armed = false ∧ s.hub.tb.setDone = false ∧ s.hub.tb.setPend = none ∧
      s.hub.tb.lock = false) ∧
    Meets { h0 with held := [(0x20008, 0xE0000000), (0x2000C, 3)] } (fun s =>
      s.hub.seenFld 0x2000C 0 8 * 2 ^ 32 + s.hub.seenFld 0x20008 0 32 = 0x3E0000000) ∧
    Meets { h0 with held := [(0x20008, 0x20000001), (0x2000C, 4)] } (fun s =>
      0x420000000 < s.hub.seenFld 0x2000C 0 8 * 2 ^ 32 + s.hub.seenFld 0x20008 0 32) ∧
    Meets { locked with tb.commitPend := true } (fun s => s.hub.tb.lock = true ∧ s.hub.tb.commitPend = true) ∧
    Meets { h0 with tb.setDone := true } (fun s => s.hub.tb.setDone = true) ∧
    Meets { h0 with tb.setPend := some 7 } (fun s => s.hub.tb.setPend.isSome = true) ∧
    Meets { h0 with tb.armed := true, ptp.state := 3 } (fun s => s.hub.tb.armed = true ∧ s.hub.ptp.state = 3 ∧ s.hub.pwr.state < 3) ∧
    Meets { h0 with pwr.state := 4 } (fun s => s.hub.pwr.state = 4) := by decide

abbrev item (p : Nat) (ripe : Bool) : EqItem := { rcd := { rec0 with pay := BitVec.ofNat 64 (p * 2 ^ 52) }, at_ := 0, ripe := ripe }
abbrev queueOf (q : Nat) (l : List EqItem) : Hub := h0.setEq q { EventQueue.init with items := l }

theorem witness_QueueCommands :
    Meets h0 (fun s => (s.hub.eq_ 31).items.length < 32) ∧
    Meets (queueOf 31 (List.replicate 32 (item 0 true))) (fun s => 32 ≤ (s.hub.eq_ 31).items.length) ∧
    Meets { queueOf 0 [item 1 true, item 2 false] with now := 2560 } (fun s => (s.hub.eq_ 0).items = [item 1 true] ++ item 2 false :: [] ∧
      (∀ y ∈ [item 1 true], y.ripe = true) ∧ (item 2 false).ripe = false ∧ (item 2 false).at_ + 2560 ≤ s.hub.now) ∧
    Meets { queueOf 0 [item 1 true, item 2 false] with now := 2559 } (fun s => ∀ x ∈ (s.hub.eq_ 0).items, x.ripe = true ∨ s.hub.now < x.at_ + 2560) ∧
    (let r : Record := { rec0 with pay := 0x80 <<< 56 }
     (unpackRecord (packRecord r)).flg.getLsbD 3 = true ∧ 0x80 ≤ recCode (unpackRecord (packRecord r))) ∧
    (let r : Record := { rec0 with pay := 0x7F <<< 56 }
     recCode (unpackRecord (packRecord r)) < 0x80) ∧
    (unpackRecord 0).flg.getLsbD 3 = false := by decide

theorem witness_QueuePop :
    Meets (queueOf 31 [item 3 true, item 15 false, item 5 true, item 5 true]) (fun s =>
      (s.hub.eq_ 31).items = [item 3 true, item 15 false] ++ item 5 true :: [item 5 true] ∧ (item 5 true).ripe = true ∧ (item 5 true).bad = false ∧
      (∀ y ∈ [item 3 true, item 15 false], y.ripe = true → recPri y.rcd < recPri (item 5 true).rcd) ∧
      (∀ y ∈ [item 5 true], y.ripe = true → recPri y.rcd ≤ recPri (item 5 true).rcd)) ∧
    Meets (queueOf 0 [{ item 3 true with bad := true }]) (fun s => (s.hub.eq_ 0).items = [] ++ { item 3 true with bad := true } :: []) ∧
    Meets (queueOf 0 [item 3 false]) (fun s => ∀ x ∈ (s.hub.eq_ 0).items, x.ripe = false) ∧
    Meets h0 (fun s => (s.hub.eq_ 0).last = none) := by decide

abbrev ringOf (n : Nat) (r : Ring) : Hub := h0.setRing n r
abbrev live : Ring := { Ring.init with state := 1, wr := 5, rd := 2 }
abbrev enabled (n : Nat) (h : Hub) : Hub := h.setFld (ringReg n 0) 0 1 1

/-- A ring whose second unit lies beyond the batch SRAM. -/
abbrev badRing (n : Nat) : Hub := (h0.setFld (ringReg n 4) 0 12 4095).setFld (ringReg n 4) 16 12 1

theorem witness_RingCommands :
    Meets h0 (fun s => s.hub.ringOn 127 = false ∧ s.hub.ringChecks 127 = (false, false, false)) ∧
    Meets (badRing 127) (fun s => s.hub.ringOn 127 = false ∧ s.hub.ringChecks 127 ≠ (false, false, false) ∧ (s.hub.ring 127).state ≠ 3) ∧
    Meets (enabled 127 (ringOf 127 live)) (fun s => s.hub.ringOn 127 = true) ∧
    Meets (ringOf 0 { live with state := 3 }) (fun s => (s.hub.ring 0).state = 3) ∧
    Meets (ringOf 127 live) (fun s => s.hub.fld (ringReg 127 8) 1 2 = 0 ∧
      ((5 : Word) - (s.hub.ring 127).rd).toNat ≤ ((s.hub.ring 127).wr - (s.hub.ring 127).rd).toNat ∧
      ((s.hub.ring 127).wr - (s.hub.ring 127).rd).toNat < ((6 : Word) - (s.hub.ring 127).rd).toNat) := by decide

theorem witness_RingPolicy :
    (let s := on (ringOf 127 { live with wr := 257 })
     (s.hub.ring 127).state = 1 ∧ (s.hub.ring 127).fill < s.hub.ringCap 127) ∧
    (let s := on (ringOf 0 { live with wr := 258 })
     (s.hub.ring 0).state = 1 ∧ s.hub.ringCap 0 ≤ (s.hub.ring 0).fill ∧ s.hub.bit (ringReg 0 8) 0 = false) ∧
    (let s := on ((ringOf 0 { live with wr := 258 }).setFld (ringReg 0 8) 0 1 1)
     (s.hub.ring 0).state = 1 ∧ s.hub.ringCap 0 ≤ (s.hub.ring 0).fill ∧ s.hub.bit (ringReg 0 8) 0 = true) ∧
    ((ringOf 0 { live with state := 3 }).ring 0).state = 3 := by decide

/-! ### Streams, records, triggers -/

/-- Stream sid with some state; its source is TRG pin p, in the format of one slot. -/
abbrev streamOf (sid : Nat) (x : Stream) (p : Nat := 0) : Hub :=
  { (((h0.setFld (ctxReg sid 8) 0 4 4).setFld (ctxReg sid 8) 8 8 p).setStrm sid x) with tb.lock := true }
abbrev inState (st : StreamState) : Stream := { Stream.init with state := st }
abbrev flightOf (sid : Nat) (st : Stage) : Flight := { sid := sid, seq := 1, rcd := rec0, stage := st, t0 := 0, per := none, grid := 0, dest := 0, taps := [] }
abbrev sample0 : Sample :=
  { instant := 0, value := 5, sat := false, kind := .pin, status := 0, period := none, pos := none, pass := false, gap := false, fresh := false }

/-- A record of stream 255 that goes, with STORE, to a ring. -/
abbrev storing (d : Word) : Flight := { flightOf 255 .ready with dest := d }

theorem witness_StreamStartAndStop :
    Meets (streamOf 255 (inState .armed)) (fun s => s.hub.pwr.state ≠ 4 ∧ (s.hub.strm 255).state = .armed) ∧
    Meets h0 (fun s => (s.hub.strm 255).state = .idle ∧ s.hub.startCheck 255 = some 1) ∧
    Meets (streamOf 255 Stream.init 7) (fun s => (s.hub.strm 255).state = .idle ∧ s.hub.startCheck 255 = none) ∧
    Meets (streamOf 1 (inState .running)) (fun s => (s.hub.strm 1).state = .running) ∧
    Meets (streamOf 1 (inState .waiting)) (fun s => (s.hub.strm 1).state = .waiting) ∧
    Meets (streamOf 1 (inState .fault)) (fun s => (s.hub.strm 1).state = .fault) ∧
    Meets (streamOf 1 (inState .draining)) (fun s => (s.hub.strm 1).state = .draining ∧ s.hub.oldest 1 = none ∧ s.hub.onHold 1 = false) ∧
    Meets ({ streamOf 1 { inState .draining with slots := [toSlot 2 sample0] } with flight := [] }) (fun s => (s.hub.strm 1).state = .draining) ∧
    Meets { streamOf 1 (inState .draining) with flight := [flightOf 1 .ready] } (fun s => (s.hub.oldest 1).isSome) := by decide

theorem witness_StreamCommit :
    Meets { h0 with held := [(ctxReg 255 0x3C, 7)] } (fun s => (s.hub.strm 255).state = .idle ∧ ctxReg 255 0 ≤ ctxReg 255 0x3C ∧
      ctxReg 255 0x3C < ctxReg 255 0 + 64 ∧ s.hub.capt = [] ∧ s.hub.held = [(ctxReg 255 0x3C, 7)]) ∧
    Meets (streamOf 1 (inState .armed)) (fun s => (s.hub.strm 1).state ≠ .idle) := by decide

theorem witness_RecordForming :
    Meets h0 (fun s => sidOk 0 = false ∧ s.hub.forms 255 = false) ∧
    Meets ((streamOf 255 (inState .running)).setFld (ctxReg 255 0x10) 0 2 1) (fun s => sidOk 255 = true ∧ s.hub.forms 255 = true ∧
      (s.hub.strm 255).closing = 0 ∧ sample0.gap = false ∧ sample0.fresh = false ∧
      (s.hub.strm 255).state = .running ∧ (s.hub.strm 255).slots = [] ∧ 0 + 1 < slotCount (s.hub.fmt 255)) ∧
    Meets { h0.setStrm 255 { Stream.init with closing := 2 } with handoff := [(255, sample0)] } (fun s => (255, sample0) ∈ s.hub.handoff ∧
      (s.hub.strm 255).closing = 0 + 2 ∧ s.hub.forms 255 = false) ∧
    Meets ((streamOf 255 { inState .running with slots := [toSlot 2 sample0, toSlot 2 sample0, toSlot 2 sample0] }).setFld (ctxReg 255 0x10) 0 2 2)
      (fun s => s.hub.forms 255 = true ∧ (s.hub.strm 255).pass = sample0.pass ∧ slotCount (s.hub.fmt 255) ≤ (s.hub.strm 255).slots.length + 1 ∧
        (s.hub.strm 255).pending = false ∧ (s.hub.strm 255).pos = none ∧ sample0.pos = none ∧ sample0.pass = false) := by decide

theorem witness_RecordStoring :
    Meets h0 (fun s => s.hub.oldest 255 = none) ∧
    Meets { h0 with flight := [flightOf 255 .inTask] } (fun s => s.hub.oldest 255 = some (flightOf 255 .inTask)) ∧
    Meets { h0 with flight := [flightOf 255 (.held 1)] } (fun s => s.hub.oldest 255 = some (flightOf 255 (.held 1))) ∧
    (passSeven 255 ([flightOf 255 .ready, flightOf 254 .inTask] ++ flightOf 255 .result :: [flightOf 255 .result])).2.length = 2 ∧
    Meets { h0 with flight := [flightOf 255 .none] } (fun s => s.hub.oldest 255 = some (flightOf 255 .none)) ∧
    Meets { h0 with flight := [flightOf 255 .ready] } (fun s => s.hub.oldest 255 = some (flightOf 255 .ready) ∧
      (flightOf 255 .ready).dest.getLsbD 7 = false) ∧
    Meets { enabled 127 h0 with flight := [storing 0xFF] } (fun s => s.hub.oldest 255 = some (storing 0xFF) ∧ (storing 0xFF).dest.getLsbD 7 = true ∧
      s.hub.ringOn (bits (storing 0xFF).dest 0 7) = true) ∧
    Meets { streamOf 255 { inState .running with fresh := false } with flight := [storing 0x80] } (fun s => s.hub.oldest 255 = some (storing 0x80) ∧
      (storing 0x80).dest.getLsbD 7 = true ∧ s.hub.ringOn (bits (storing 0x80).dest 0 7) = false ∧ (s.hub.strm 255).state = .running ∧
      (s.hub.strm 255).fresh = false ∧ (s.hub.hsl (s.hub.slice 255)).pending = false ∧ (s.hub.msl (s.hub.slice 255)).pending = false ∧
      (s.hub.rsl (s.hub.rsmp 255)).pending = false ∧ s.hub.pwr.state ≠ 4) := by decide

/-- Entry i on SP15, select code 1, with some trigger. -/
abbrev entryOf (i trig : Nat) (x : TxEntry) : Hub :=
  (((((h0.setFld (txReg i 0) 0 1 1).setFld (txReg i 4) 0 4 15).setFld (txReg i 4) 8 3 1).setFld (txReg i 8) 0 2 trig).setTxe i x)
abbrev txn0 : Txn :=
  { src := .entry 127, cls := 0, seq := 0, fmt := 0, sel := 1, addr := 0, ref := 0, ofs := 0, width := 1, unsig := false, le := false, per := none }

theorem witness_TriggerCommands :
    Meets (entryOf 127 0 { TxEntry.init with due := some 0 }) (fun s => before s.hub.ts 0 = false ∧ s.hub.txOn 127 = true ∧ s.hub.portOn s.hub.pwr.state (s.hub.txPort 127) = true ∧
      s.hub.entryAbsent 127 = false ∧ (s.hub.txe 127).held = none ∧ (s.hub.txe 127).queued = false ∧ (s.hub.txe 127).active = false ∧
      s.hub.spaced 127 = false ∧ (s.hub.pq (s.hub.txPort 127)).waiting.length < 16 ∧ s.hub.trig 127 = 0 ∧ (s.hub.txe 127).due = some 0) ∧
    Meets (entryOf 127 0 { TxEntry.init with due := some 1 }) (fun s => (s.hub.txe 127).due = some 1 ∧ before s.hub.ts 1 = true) ∧
    Meets (entryOf 127 0 { TxEntry.init with queued := true }) (fun s => s.hub.txOn 127 = true ∧ s.hub.entryAbsent 127 = false ∧
      (s.hub.txe 127).held = none ∧ (s.hub.txe 127).queued = true ∧ (s.hub.txe 127).active = false) ∧
    Meets (entryOf 127 0 { TxEntry.init with queued := true, held := some txn0 }) (fun s => s.hub.txOn 127 = true ∧ (s.hub.txe 127).held.isSome) ∧
    Meets h0 (fun s => s.hub.txOn 127 = false) ∧ Meets (entryOf 127 2 TxEntry.init) (fun s => s.hub.trig 127 ≠ 0) := by decide

theorem witness_SchedulerCommands :
    Meets (entryOf 127 0 { TxEntry.init with held := some txn0, spaced := true }) (fun s => (s.hub.txe 127).held = some txn0 ∧
      (s.hub.txe 127).spaced = true ∧ s.hub.spaced 127 = false ∧ (s.hub.txe 127).queued = false ∧ (s.hub.txe 127).active = false ∧
      (s.hub.pq (s.hub.txPort 127)).waiting.length < 16) ∧
    Meets h0 (fun s => (s.hub.txe 127).held = none ∧ s.hub.txOn 127 = false ∧
      entryOk 127 (s.hub.reg (txReg 127 4)) (s.hub.reg (txReg 127 8)) = false) ∧
    Meets ((entryOf 127 0 TxEntry.init).setFld (txReg 127 0) 0 1 0) (fun s => s.hub.txOn 127 = false ∧ s.hub.trig 127 = 0 ∧
      entryOk 127 (s.hub.reg (txReg 127 4)) (s.hub.reg (txReg 127 8)) = true) ∧
    Meets ((entryOf 127 2 TxEntry.init).setFld (txReg 127 0) 0 1 0) (fun s => s.hub.txOn 127 = false ∧ s.hub.trig 127 ≠ 0 ∧
      entryOk 127 (s.hub.reg (txReg 127 4)) (s.hub.reg (txReg 127 8)) = true) ∧
    Meets (entryOf 127 0 TxEntry.init) (fun s => s.hub.txOn 127 = true ∧ ∀ t ∈ (s.hub.pq (s.hub.txPort 127)).waiting, t.src ≠ .entry 127) ∧
    Meets ((entryOf 127 0 { TxEntry.init with queued := true }).setPq 15 { PortQueue.init with waiting := [txn0] }) (fun s =>
      s.hub.txOn 127 = true ∧ ∃ t ∈ (s.hub.pq (s.hub.txPort 127)).waiting, t.src = .entry 127 ∧ t.at_ = s.hub.now) ∧
    Meets { (entryOf 127 0 { TxEntry.init with queued := true }).setPq 15 { PortQueue.init with waiting := [txn0] } with now := 1 } (fun s =>
      (∃ t ∈ (s.hub.pq (s.hub.txPort 127)).waiting, t.src = .entry 127) ∧
      ∀ t ∈ (s.hub.pq (s.hub.txPort 127)).waiting, t.src = .entry 127 → t.at_ ≠ s.hub.now) ∧
    Meets (entryOf 127 0 TxEntry.init) (fun s => ∀ k, k < 128 → s.hub.txOn k = true → entryOk k (s.hub.seen (txReg k 4)) (s.hub.seen (txReg k 8)) = true) ∧
    Meets { (entryOf 127 0 TxEntry.init).setFld (txReg 127 4) 0 4 0 with held := [(txReg 127 4, 0)] } (fun s => s.hub.txOn 127 = true ∧
      entryOk 127 (s.hub.seen (txReg 127 4)) (s.hub.seen (txReg 127 8)) = false) := by decide

/-! ### Crank angle and track distance -/

abbrev crankOf (c : Crank) : Hub := h0.setCrank c
abbrev sync360 : Crank := { Crank.init with state := .sync360 }

theorem witness_CrankCommands :
    Meets h0 (fun s => s.hub.pwr.state ≠ 4 ∧ s.hub.ang.crank.state = .search) ∧
    Meets (crankOf sync360) (fun s => s.hub.ang.crank.state = .sync360 ∧ s.hub.gridSids 1 = []) ∧
    Meets (crankOf { sync360 with state := .lost }) (fun s => s.hub.ang.crank.state = .lost) := by decide

/-- DIST domain d counts ANG_IN7 up to its beacon at input i. -/
abbrev distOf (d i : Nat) (x : Dist) : Hub :=
  (((h0.setFld (dstReg d 0) 0 1 1).setFld (dstReg d 4) 0 3 7).setFld (dstReg d 4) 4 4 i).setDist d x

theorem witness_DistAndPinCommands :
    Meets h0 (fun s => s.hub.pwr.state ≠ 4 ∧ (s.hub.dist 3).track = false ∧ s.hub.bit (dstReg 3 0) 0 = false) ∧
    Meets (distOf 3 0 { Dist.init with track := true }) (fun s => s.hub.pwr.state < 3 ∧ (s.hub.dist 3).track = true ∧ s.hub.gridSids 5 = [] ∧
      s.hub.bit (dstReg 3 0) 0 = true) ∧
    Meets h0 (fun s => s.hub.pwr.state < 3 ∧ s.hub.ang.trgLevel.getLsbD 7 = false ∧ s.hub.ang.angLevel.getLsbD 7 = false) ∧
    Meets h0 (fun s => s.hub.ang.trgLevel.getLsbD 7 ≠ true ∧ activeEdge (s.hub.fld (0x9F100 + 4 * 7) 8 2) true = true ∧
      (∀ i, i < 128 → s.hub.txOn i = true → s.hub.trig i = 2 → s.hub.fld (txReg i 8) 4 3 ≠ 7) ∧
      (∀ d ∈ s.hub.distsOn, s.hub.bit (dstReg d 4) 8 = true → s.hub.fld (dstReg d 4) 4 4 ≠ 7) ∧
      s.hub.liveSids.filter (fun k => s.hub.kind k == 4 && s.hub.srcIndex k == 7) = []) ∧
    Meets (streamOf 255 (inState .running) 7) (fun s => s.hub.ang.trgLevel.getLsbD 7 ≠ true ∧
      s.hub.liveSids.filter (fun k => s.hub.kind k == 4 && s.hub.srcIndex k == 7) = [255] ∧ s.hub.forms 255 = true) ∧
    Meets (h0.setAng { h0.ang with trgLevel := 0x80, angLevel := 0x80 }) (fun s => s.hub.ang.trgLevel.getLsbD 7 ≠ false ∧
      activeEdge (s.hub.fld (0x9F100 + 4 * 7) 8 2) false = false ∧ s.hub.ang.angLevel.getLsbD 7 ≠ false ∧
      activeEdge (s.hub.fld (0x30000 + 4 * 7) 8 2) false = false) ∧
    Meets h0 (fun s => s.hub.ang.angLevel.getLsbD 7 ≠ true ∧ activeEdge (s.hub.fld (0x30000 + 4 * 7) 8 2) true = true ∧
      s.hub.bit 0x30040 0 = false ∧ s.hub.probes = [] ∧ (∀ d ∈ s.hub.distsOn, s.hub.fld (dstReg d 4) 0 3 ≠ 7) ∧
      s.hub.liveSids.filter (fun k => s.hub.kind k == 5 && s.hub.srcIndex k == 7) = []) ∧
    Meets (distOf 3 0 Dist.init) (fun s => s.hub.distsOn.filter (fun k => s.hub.fld (dstReg k 4) 0 3 == 7) = [3] ∧
      ∀ d ∈ s.hub.distsOn, s.hub.bit (dstReg d 4) 8 = true → s.hub.fld (dstReg d 4) 4 4 ≠ 15) := by decide

theorem witness_DistAndPinCommands_deep :
    Meets ((distOf 3 0 { Dist.init with zeroDue := true }).setPwr { h0.pwr with state := 3 }) (fun s => (s.hub.dist 3).track = false ∧
      (s.hub.dist 3).zeroDue = true ∧ 3 ≤ s.hub.pwr.state) := by decide

theorem witness_CrankDecoding :
    (crankOf { Crank.init with regular := 3 }).ang.crank.regular = 3 ∧ h0.ang.crank.state = .search ∧ h0.ang.crank.regular < 3 ∧
    (let h := crankOf { Crank.init with state := .gapFound, count := h0.perMark }
     h.ang.crank.count = h.perMark ∧ h.gridSids 1 = [] ∧ h.bit 0x30048 16 = false) ∧
    (let h := crankOf { Crank.init with state := .gapFound, count := h0.perMark + 1 }
     h.ang.crank.count ≠ h.perMark) ∧
    (let h := crankOf { sync360 with count := h0.perMark, camHalf := some 1 }
     h.ang.crank.count = h.perMark ∧ h.ang.crank.camHalf = some 1 ∧ h.gridSids 1 = []) ∧
    (let h := crankOf { sync360 with state := .sync720, count := h0.perMark + 1 }
     h.ang.crank.count ≠ h.perMark ∧ h.gridSids 1 = []) := by decide

abbrev armed (i : Nat) : Hub := h0.setAse i { Ase.init with armed := true }
/-- Entry i with an ASE_ACTION value, which has come to its position. -/
abbrev firing (i : Nat) (v : Word) : Hub :=
  ((armed i).setReg (aseReg i 4) v).setFld 0x30100 0 1 1 |>.setAng { (armed i).ang with firing := [i] }
/-- The same as the ninth of a tick. -/
abbrev ninth (i : Nat) (v : Word) : Hub := (firing i v).setAng { (firing i v).ang with passed := 8 }

theorem witness_AngleScheduleCommands :
    Meets (armed 1023) (fun s => (s.hub.ase 1023).armed = true ∧ s.hub.ang.disarmAll = false ∧ (0xB0C00088 : Word) &&& 0x4F3FFF77 = s.hub.reg (aseReg 1023 4) ∧
      (0x20 : Word) &&& 0x4F3FFF77 ≠ s.hub.reg (aseReg 1023 4)) ∧
    Meets h0 (fun s => (s.hub.ase 1023).armed = false ∧ s.hub.actionOk 1023 0x20 = true ∧ s.hub.actionOk 1023 0x70 = false ∧ s.hub.bit 0x30100 0 = false ∧
      s.hub.armedAses = [] ∧ (∀ e ∈ s.hub.ang.ase, e.2.arming = false) ∧ s.hub.ang.pulses.find? (fun p => p.1 == 7) = none) ∧
    (∀ k : Fin 5, Meets (firing 1023 (BitVec.ofNat 32 (16 * (k.val + 1)))) (fun s => s.hub.ang.firing.contains 1023 = true ∧
      s.hub.bit 0x30100 0 = true ∧ s.hub.pwr.state < 3 ∧ (s.hub.ase 1023).susp = false ∧ s.hub.synced (s.hub.fld (aseReg 1023 4) 0 3) = true ∧
      s.hub.ang.passed < 8 ∧ s.hub.fld (aseReg 1023 4) 4 3 = k.val + 1 ∧ s.hub.acquired.contains 0 = false ∧
      s.hub.bit (aseReg 1023 4) 21 = false ∧ s.hub.fld (aseReg 1023 4) 0 3 = 0)) ∧
    Meets (ninth 1023 0x10) (fun s => s.hub.ang.firing.contains 1023 = true ∧ s.hub.bit 0x30100 0 = true ∧ s.hub.pwr.state < 3 ∧
      (s.hub.ase 1023).susp = false ∧ s.hub.synced (s.hub.fld (aseReg 1023 4) 0 3) = true ∧ 8 ≤ s.hub.ang.passed ∧ s.hub.fld (aseReg 1023 4) 4 3 ≠ 4) ∧
    Meets ((armed 1023).setAng { (armed 1023).ang with disarmAll := true }) (fun s => ¬ ((s.hub.ase 1023).armed = true ∧ s.hub.ang.disarmAll = false) ∧
      s.hub.actionOk 1023 0x20 = true) ∧
    Meets (armed 1023) (fun s => s.hub.bit 0x30100 0 = false ∧ s.hub.armedAses = [1023]) ∧
    Meets (h0.setAse 1023 { Ase.init with arming := true }) (fun s => s.hub.ang.ase = [(1023, { Ase.init with arming := true })]) ∧
    Meets ((h0.setAng { h0.ang with pulses := [(7, 1, 0)] }).setFld (0x30140 + 4 * 7) 0 1 1) (fun s =>
      s.hub.ang.pulses.find? (fun p => p.1 == 7) = some (7, 1, 0) ∧ s.hub.bit (0x30140 + 4 * 7) 0 = true) ∧
    Meets (h0.setAng { h0.ang with pulses := [(7, 1, 0)] }) (fun s => s.hub.bit (0x30140 + 4 * 7) 0 = false) := by decide

/-! ### Decimation banks and resamplers -/

abbrev groupOn (g : Nat) (h : Hub) : Hub := (h.setFld 0x4F010 g 1 1).setGrp g { Group.init with on := true }

theorem witness_GroupCommands :
    Meets (groupOn 3 h0) (fun s => s.hub.bit 0x4F010 3 = true ∧ s.hub.groupUsed 3 = false) ∧
    Meets h0 (fun s => s.hub.bit 0x4F010 3 = false ∧ s.hub.bankHOn = false ∧
      (List.range 48).find? (fun n => s.hub.groupOf n == 3 && !rateOk (s.hub.hCfgOf n) (s.hub.div 3)) = none) ∧
    Meets { h0 with tb.lock := true } (fun s => s.hub.bankHOn = true) ∧
    Meets ((h0.setFld (hchReg 47 0x0C) 0 2 3).setFld (0x4F000 + 4 * 3) 0 6 1) (fun s => s.hub.bit 0x4F010 3 = false ∧
      (List.range 48).find? (fun n => s.hub.groupOf n == 3 && !rateOk (s.hub.hCfgOf n) (s.hub.div 3)) = some 47) ∧
    Meets (((((groupOn 3 h0).setFld (hchReg 47 0x0C) 0 2 3).setFld (ctxReg 255 8) 0 4 1).setReg (ctxReg 255 0xC) 0x12F).setStrm 255 (inState .running))
      (fun s => s.hub.bit 0x4F010 3 = true ∧ s.hub.groupUsed 3 = true) := by decide

/-- Slice 47 with a CIC of order 1 and ratio 2 and the one-tap response, n bits after it began to prime, feeding stream 255. -/
abbrev chainH (n : Nat) : Hub :=
  { (((((((((groupOn 0 h0).setFld (ctxReg 255 8) 0 4 1).setFld (ctxReg 255 8) 8 8 47).setFld (ctxReg 255 0xC) 0 8 47).setFld (ctxReg 255 0xC) 8 2 1).setReg
      (hchReg 47 0) 0x20001).setReg (hchReg 47 4) 0x2D000000).setReg (hchReg 47 8) 0).setStrm 255 (inState .running)).setHsl 47
      { HSlice.init with cic := [false], count := n, priming := true } with tb.lock := true }

theorem witness_BankHOutputs :
    Meets h0 (fun s => (s.hub.grp (s.hub.groupOf 47)).on = false) ∧
    Meets (groupOn 0 h0) (fun s => (s.hub.grp (s.hub.groupOf 47)).on = true ∧ s.hub.sliceOwner 1 47 = none) ∧
    Meets (chainH 4) (fun s => (s.hub.grp (s.hub.groupOf 47)).on = true ∧ s.hub.sliceOwner 1 47 = some 255 ∧ s.hub.forms 255 = true ∧
      (s.hub.shd 0).phase = 0 ∧ (pushBit (s.hub.hCfgOf 47) (s.hub.hsl 47) true).2 = none) ∧
    Meets (chainH 7) (fun s => s.hub.sliceOwner 1 47 = some 255 ∧ s.hub.forms 255 = true ∧ (s.hub.shd 0).phase = 0 ∧
      (pushBit (s.hub.hCfgOf 47) (s.hub.hsl 47) true).1.pending = false ∧ s.hub.rsmpEn 255 = false ∧ ∀ d ∈ s.hub.liveSids, s.hub.kind d ≠ 6) := by decide

/-- The eighth bit completes an output that is exactly zero, whatever the trim of the CIC. -/
theorem witness_BankHOutputs_some :
    (pushBit ((chainH 7).hCfgOf 47) { (chainH 7).hsl 47 with edge := 1, lineN := 1 } true).2 = some ⟨0, false⟩ := by
  have hc : (chainH 7).hCfgOf 47 = { order := 1, ratio := 2, hb1 := 0, hb2 := 0, hbs := 0, fir := 0x2D, phd := 0 } := by decide
  have hx : (chainH 7).hsl 47 = { HSlice.init with cic := [false], count := 7, priming := true } := by decide
  have hs : ((cicTaps 1 2).zip [true, false]).foldl (fun (a : Int) e => a + e.1 * (if e.2 then 1 else -1)) 0 = 0 := by decide
  have h0 : cicOut 1 2 [true, false] = ⟨0, false⟩ := by
    simp only [cicOut, hs]
    simp [settleVal, roundDiv, limit]
  rw [hc, hx]
  have hk : keep (1 * (2 - 1) + 1) (List.getD (keep 1024 (true :: HSlice.init.line)) (0 / 64) false :: [false]) = [true, false] := by decide
  simp only [pushBit, hk, h0]
  decide

abbrev word0 : MIn := { t := 0, v := ⟨5, false⟩ }
/-- Slice 63 averaging a words, with one word waiting, feeding stream 255. -/
abbrev chainM (a : Nat) (st : StreamState) : Hub :=
  { (((((((h0.setFld (ctxReg 255 8) 0 4 2).setFld (ctxReg 255 0xC) 0 8 63).setFld (ctxReg 255 0xC) 8 2 2).setReg (mchReg 63 0)
      (BitVec.ofNat 32 (a - 1)))).setStrm 255 (inState st)).setMsl 63 { MSlice.init with fifo := [(0, ⟨5, false⟩, none)] }) with tb.lock := true }

theorem witness_BankMOutputs :
    Meets h0 (fun s => (s.hub.msl 63).fifo = []) ∧
    Meets (h0.setMsl 63 { MSlice.init with fifo := [(0, ⟨5, false⟩, none)] }) (fun s => (s.hub.msl 63).fifo = (0, ⟨5, false⟩, none) :: [] ∧
      s.hub.sliceOwner 2 63 = none) ∧
    Meets (h0.setMsl 63 { MSlice.init with fifo := [(0, ⟨5, false⟩, none)], syncWait := true, after := some 0 }) (fun s =>
      (s.hub.msl 63).syncWait = true ∧ (s.hub.msl 63).after = some 0 ∧ before (0 : Instant) 0 = false ∧ before (0 : Instant) 1 = true) ∧
    Meets (chainM 2 .running) (fun s => (s.hub.msl 63).fifo = (0, ⟨5, false⟩, none) :: [] ∧ s.hub.sliceOwner 2 63 = some 255 ∧ s.hub.forms 255 = true ∧
      (s.hub.msl 63).syncWait = false ∧ (s.hub.msl 63).after = none ∧ (s.hub.shd 1).phase = 0 ∧
      (pushWord (mCfg (s.hub.reg (mchReg 63 0))) { s.hub.msl 63 with fifo := [], per := none } word0).2 = none) ∧
    Meets (chainM 1 .running) (fun s =>
      let next := pushWord (mCfg (s.hub.reg (mchReg 63 0))) { s.hub.msl 63 with fifo := [], per := none } word0
      next.2 = some ⟨5, false⟩ ∧ next.1.pending = false ∧ (s.hub.msl 63).holes = [] ∧ s.hub.rsmpEn 255 = false ∧
      ∀ d ∈ s.hub.liveSids, s.hub.kind d ≠ 6) := by decide

/-- Context 31 of grid stream 255 on CRANK, its next point at 16, with the samples of its source. -/
abbrev gridOf (samples : List RsIn) (next : Option Nat) : Hub :=
  let marks : List Mark := [{ t := 20 * 2 ^ 40, p := 32 * 65536 }, { t := 10 * 2 ^ 40, p := 0 }]
  { ((((((h0.setFld (ctxReg 255 8) 0 4 6).setFld (ctxReg 255 0xC) 16 5 31).setFld (ctxReg 255 0xC) 23 1 1).setFld (ctxReg 255 0x10) 4 3 1).setFld
      (rsmReg 31 4) 0 8 0x28).setStrm 255 (inState .running)).setRsl 31 { Rsmp.init with hist := samples, next := next }
      |>.setCrank { sync360 with run := { Course.init with marks := marks, start := some (10 * 2 ^ 40) } } with tb.lock := true }
abbrev past : List RsIn := [30, 20, 10, 0].map (fun t => { t := BitVec.ofNat 72 (t * 2 ^ 40), v := ⟨t, false⟩, hole := false })

theorem witness_BankCommitsAndSync :
    Meets (h0.setReg (hchReg 47 0) 0) (fun s => hCfgOk (s.hub.hCfgNext 47) (s.hub.div (s.hub.groupOf 47)) = false) ∧
    Meets h0 (fun s => hCfgOk (s.hub.hCfgNext 47) (s.hub.div (s.hub.groupOf 47)) = true ∧ s.hub.sliceOwner 1 47 = none ∧ (s.hub.shd 0).phase = 0 ∧
      mCfgOk (mCfg (s.hub.seen (mchReg 63 0))) = true ∧ s.hub.sliceOwner 2 63 = none ∧ (s.hub.shd 1).phase = 0 ∧
      s.hub.rsmpOwner 31 = none ∧ (s.hub.rsl 31).next = none ∧ s.hub.bit 0x5F000 1 = false ∧ s.hub.lastSync ≠ some (s.hub.portAhead 1) ∧
      s.hub.liveSids.filter (fun k => s.hub.bank k == 2) = []) ∧
    Meets (((((h0.setFld (ctxReg 255 8) 0 4 1).setFld (ctxReg 255 8) 8 8 47).setFld (ctxReg 255 0xC) 0 8 47).setFld (ctxReg 255 0xC) 8 2 1).setStrm 255
      (inState .running)) (fun s => hCfgOk (s.hub.hCfgNext 47) (s.hub.div (s.hub.groupOf 47)) = true ∧ s.hub.atOnce 1 47 (s.hub.hsl 47).priming = false) ∧
    Meets (h0.setReg (mchReg 63 0) 0x10F) (fun s => mCfgOk (mCfg (s.hub.seen (mchReg 63 0))) = true) ∧
    Meets (h0.setReg (mchReg 63 0) 0x280010) (fun s => mCfgOk (mCfg (s.hub.seen (mchReg 63 0))) = false) ∧
    Meets (chainM 1 .running) (fun s => mCfgOk (mCfg (s.hub.seen (mchReg 63 0))) = true ∧ s.hub.atOnce 2 63 (s.hub.msl 63).priming = false ∧
      s.hub.liveSids.filter (fun k => s.hub.bank k == 2) = [255] ∧ (s.hub.strm 255).state = .running) ∧
    Meets (chainM 1 .waiting) (fun s => s.hub.liveSids.filter (fun k => s.hub.bank k == 2) = [255] ∧ (s.hub.strm 255).state = .waiting) ∧
    Meets (gridOf [] none) (fun s => s.hub.rsmpOwner 31 = some 255 ∧ (s.hub.strm 255).state = .running ∧ s.hub.synced (s.hub.domain 255) = true ∧
      gridOk (s.hub.domain 255) (s.hub.seen (rsmReg 31 0)) (s.hub.seen (rsmReg 31 4)) = true) ∧
    Meets (chainM 1 .armed) (fun s => s.hub.liveSids.filter (fun k => s.hub.bank k == 2) = [255] ∧ (s.hub.strm 255).state = .armed ∧
      (s.hub.shd 1).phase = 0) ∧
    Meets { h0 with lastSync := some (h0.portAhead 1) } (fun s => s.hub.lastSync = some (s.hub.portAhead 1)) ∧
    Meets (h0.setFld 0x5F000 1 1 1) (fun s => s.hub.bit 0x5F000 1 = true) := by decide

theorem witness_GridPoints :
    Meets h0 (fun s => s.hub.rsmpOwner 31 = none) ∧
    Meets (gridOf [] none) (fun s => s.hub.rsmpOwner 31 = some 255 ∧ (s.hub.rsl 31).next = none) ∧
    Meets (gridOf past (some 40)) (fun s => s.hub.rsmpOwner 31 = some 255 ∧ s.hub.nextPoint 255 31 = .wait) ∧
    Meets (gridOf past (some 16)) (fun s => s.hub.rsmpOwner 31 = some 255 ∧ (s.hub.rsl 31).next = some 16 ∧
      s.hub.nextPoint 255 31 = .made (15 * 2 ^ 40) (15 * 2 ^ 40) ⟨15, false⟩ 3 ∧ s.hub.forms 255 = true ∧ s.hub.domain 255 = 1 ∧
      (s.hub.shd 2).phase = 0 ∧ (s.hub.rsl 31).pending = false ∧ (s.hub.rsl 31).laps = []) ∧
    Meets (gridOf (past.take 2) (some 16)) (fun s => s.hub.rsmpOwner 31 = some 255 ∧ s.hub.nextPoint 255 31 = .lost (15 * 2 ^ 40) true ∧
      s.hub.domain 255 = 1 ∧ (s.hub.shd 2).phase = 0 ∧ (s.hub.strm 255).slots = [] ∧ (s.hub.strm 255).fresh = true) := by decide

theorem witness_FilterRounding : (0 < 2) ∧ settleVal 5 2 false = ⟨3, false⟩ ∧ settleVal (-5) 2 true = ⟨-2, true⟩ ∧
    settleVal (2 ^ 32) 1 false = ⟨2 ^ 31 - 1, true⟩ ∧ settleVal (-(2 ^ 31)) 1 false = ⟨-(2 ^ 31 - 1), true⟩ := by decide

/-! ### Serial and two-wire ports -/

abbrev spActive (ws : List Word) (ph : PortPhase) (tries : Nat := 0) : Hub :=
  (h0.setSpt 15 { SerialPort.init with phase := ph, words := ws, tries := tries }).setPq 15 { PortQueue.init with active := some txn0 }
/-- A format that reads two words, with a status field of one bit, and two retries. -/
abbrev statWords : List Word := [0, 0, 2, 0x00200001, 0, 0]

theorem witness_SerialFrames :
    Meets h0 (fun s => (s.hub.spt 15).phase ≠ .frame ∧ (s.hub.spt 15).phase ≠ .wait) ∧
    Meets (spActive [0, 0, 2, 0, 0, 0] .frame) (fun s => (s.hub.spt 15).phase = .frame ∧ (s.hub.pq 15).active = some txn0 ∧
      fmtBits (s.hub.spt 15).words 3 0 1 = 0) ∧
    Meets (spActive statWords .frame) (fun s => fmtBits (s.hub.spt 15).words 3 0 1 = 1 ∧ (s.hub.spt 15).tries < fmtBits (s.hub.spt 15).words 3 20 4 ∧
      s.hub.heldTrigger txn0 = false ∧ s.hub.detached txn0 = false) ∧
    Meets (spActive statWords .frame 2) (fun s => fmtBits (s.hub.spt 15).words 3 20 4 ≤ (s.hub.spt 15).tries) ∧
    Meets (spActive statWords .wait) (fun s => (s.hub.spt 15).phase = .wait) := by decide

abbrev dqsPort : Hub := h0.setSpt 1 { SerialPort.init with phase := .frame, words := [0, 0x01000000, 1, 0, 0, 0] }

/-- Port n before SEN_N has fallen. -/
abbrev unbegun (n : Nat) (h : Hub) : Hub := h.setSpt n { h.spt n with sen := 1 }

theorem witness_SerialPortCommands :
    Meets (spActive statWords .frame) (fun s => (s.hub.spt 15).phase = .frame ∧ (s.hub.spt 15).at_ + (s.hub.spt 15).sen * 160 ≤ s.hub.now) ∧
    Meets (unbegun 15 (spActive statWords .frame)) (fun s => (s.hub.spt 15).phase = .frame ∧ s.hub.now < (s.hub.spt 15).at_ + (s.hub.spt 15).sen * 160) ∧
    Meets (spActive statWords .wait) (fun s => (s.hub.spt 15).phase = .wait) ∧
    Meets (unbegun 1 dqsPort) (fun s => s.hub.now < (s.hub.spt 1).at_ + (s.hub.spt 1).sen * 160) ∧
    Meets h0 (fun s => (s.hub.spt 15).phase = .idle ∧ (s.hub.spt 15).pending = false) ∧
    Meets dqsPort (fun s => (s.hub.spt 1).phase = .frame ∧ (s.hub.spt 1).at_ + (s.hub.spt 1).sen * 160 ≤ s.hub.now ∧ fmtBits (s.hub.spt 1).words 1 24 1 = 1 ∧ fmtBits (s.hub.spt 1).words 2 0 7 ≠ 0 ∧
      dataOut (s.hub.spt 1).words = false) ∧
    Meets (h0.setSpt 15 { SerialPort.init with pending := true }) (fun s => (s.hub.spt 15).pending = true) ∧
    Meets h0 (fun s => ∀ k, k < 8 → spFormatOk 15 ((List.range 6).map (fun i => s.hub.seen (spReg 15 (0x100 + 0x20 * k + 4 * i)))) = true) ∧
    Meets { h0 with held := [(spReg 15 0x1EC, 1)] } (fun s =>
      (∀ k, k < 7 → spFormatOk 15 ((List.range 6).map (fun i => s.hub.seen (spReg 15 (0x100 + 0x20 * k + 4 * i)))) = true) ∧
      spFormatOk 15 ((List.range 6).map (fun i => s.hub.seen (spReg 15 (0x100 + 0x20 * 7 + 4 * i)))) = false) ∧
    Meets ((spActive statWords .frame).setFld (spReg 15 0) 0 1 1) (fun s => (s.hub.spt 15).phase ≠ .idle ∧ s.hub.bit (spReg 15 0) 0 = true) := by decide

/-- A two-wire format that reads one byte with PEC and a status byte, with retries. -/
abbrev twWords : List Word := [0x00110105, 0, 0, 0x00010001, 0, 0]
abbrev twOf (x : TwoWirePort) : Hub := (h0.setTwt 7 x).setPq 23 { PortQueue.init with active := some txn0 }
abbrev twFrame0 : TwoWirePort := { TwoWirePort.init with phase := .frame, words := twWords }

theorem witness_TwoWireFrames :
    Meets (twOf twFrame0) (fun s => (s.hub.twt 7).phase = .frame ∧ (s.hub.pq 23).active = some txn0 ∧ s.hub.heldTrigger txn0 = false ∧
      s.hub.detached txn0 = false ∧ (s.hub.twt 7).pending = false ∧ (s.hub.twt 7).nacks < twf twWords 0 16 4 ∧ twf twWords 0 2 1 = 1 ∧ twf twWords 0 8 6 ≠ 0 ∧ twf twWords 3 0 1 = 1 ∧
      (s.hub.twt 7).waits < twf twWords 3 16 4) ∧
    Meets (twOf { twFrame0 with nacks := 1, waits := 1 }) (fun s => twf twWords 0 16 4 ≤ (s.hub.twt 7).nacks ∧ twf twWords 3 16 4 ≤ (s.hub.twt 7).waits) ∧
    Meets (twOf { twFrame0 with pending := true }) (fun s => (s.hub.twt 7).phase = .frame ∧ (s.hub.pq 23).active ≠ none ∧
      (s.hub.twt 7).pending = true ∧ (s.hub.twt 7).tgt = none) ∧
    Meets ((twOf twFrame0).setTxe 127 { TxEntry.init with held := some txn0 }) (fun s => s.hub.heldTrigger txn0 = true) ∧
    (let byte (b : Byte) := (((BitVec.toNat b) >>> twf twWords 3 8 3) % 2 ^ (twf twWords 3 12 3 + 1) : Nat)
     byte 0 = 0 ∧ byte 1 ≠ 0) ∧
    (none : Option Byte) ≠ some (crc8 (pecBytes twWords 0 [1])) := by decide

theorem witness_TwoWireBus :
    Meets ((twOf twFrame0).setFld (twReg 7 4) 0 3 7) (fun s => s.hub.pwr.state < 3 ∧ s.hub.bit (twReg 7 4) 0 = true ∧ (s.hub.twt 7).phase = .frame ∧
      (s.hub.pq 23).active = some txn0 ∧ s.hub.heldTrigger txn0 = false ∧ s.hub.detached txn0 = false ∧ (s.hub.twt 7).waits < twf (s.hub.twt 7).words 3 16 4 ∧
      twf (s.hub.twt 7).words 0 2 1 = 1 ∧ twf (s.hub.twt 7).words 0 8 6 ≠ 0 ∧ (s.hub.twt 7).arbs < twf (s.hub.twt 7).words 0 20 4 ∧
      s.hub.bit (twReg 7 4) 1 = true ∧ (s.hub.twt 7).tgt = none ∧ s.hub.bit (twReg 7 4) 2 = true ∧ (s.hub.twt 7).pending = false) ∧
    Meets ((twOf { twFrame0 with arbs := 1 }).setFld (twReg 7 4) 0 1 1) (fun s => twf (s.hub.twt 7).words 0 20 4 ≤ (s.hub.twt 7).arbs) ∧
    Meets (((twOf twFrame0).setFld (twReg 7 4) 0 3 0)) (fun s => s.hub.bit (twReg 7 4) 0 = false ∧ s.hub.bit (twReg 7 4) 1 = false ∧
      s.hub.bit (twReg 7 4) 2 = false) ∧
    Meets (twOf { twFrame0 with phase := .wait, last := 0 }) (fun s => (s.hub.twt 7).phase = .wait ∧ (s.hub.twt 7).last = 0 ∧
      (s.hub.twt 7).pending = false ∧ (s.hub.twt 7).busy = false ∧ (s.hub.twt 7).stuck = false ∧ (s.hub.twt 7).inFrame = false ∧
      (s.hub.twt 7).tgt = none) ∧
    Meets (twOf { twFrame0 with phase := .wait, busy := true, last := 4 }) (fun s => (s.hub.twt 7).last ≠ 0 ∧ (s.hub.twt 7).busy = true) ∧
    Meets h0 (fun s => (s.hub.twt 7).inFrame = false ∧ (s.hub.twt 7).phase ≠ .frame ∧ (s.hub.twt 7).phase ≠ .wait) ∧
    Meets (twOf twFrame0) (fun s => (s.hub.twt 7).inFrame = true) := by decide

/-- Port TW7 as a target at address 0x50 with PEC. -/
abbrev targetOf (x : TwoWirePort) : Hub := ((h0.setFld (twReg 7 0) 4 1 1).setReg (twReg 7 0x080) 0x350).setTwt 7 x
abbrev asked (code : Byte) : TargetFrame := { addr := 0x50, pec := true, code := some code, rd := false, first := 0x50, item := 0 }

theorem witness_TwoWireTarget :
    Meets { h0 with held := [(twReg 7 0x1EC, 0x3F)] } (fun s => s.hub.twCheck 7 = some 7) ∧
    Meets h0 (fun s => s.hub.twCheck 7 = none ∧ (s.hub.twt 7).inFrame = false ∧ s.hub.targetMatch 7 0x7F = none ∧ (s.hub.twt 7).tgt = none) ∧
    Meets (twOf twFrame0) (fun s => s.hub.twCheck 7 = none ∧ (s.hub.twt 7).inFrame = true) ∧
    Meets (targetOf TwoWirePort.init) (fun s => s.hub.targetMatch 7 0x50 = some true ∧ s.hub.pwr.state < 3 ∧ (s.hub.twt 7).phase ≠ .frame ∧
      (s.hub.twt 7).pending = false ∧ targetCodes.contains (0x22 : Byte).toNat = true ∧ targetCodes.contains (0x23 : Byte).toNat = false) ∧
    Meets ((targetOf { TwoWirePort.init with pending := true }).setPwr { h0.pwr with state := 3 }) (fun s => s.hub.targetMatch 7 0x50 = some true ∧
      3 ≤ s.hub.pwr.state ∧ s.hub.bit 0x1010C 8 = false ∧ (s.hub.twt 7).pending = true ∧ (s.hub.twt 7).tgt = none) ∧
    Meets (targetOf { TwoWirePort.init with pending := true, tgt := some (asked 0x10) }) (fun s => s.hub.pwr.state < 3 ∧ (s.hub.twt 7).tgt.isSome ∧
      (asked 0x10).rd = false ∧ (asked 0x10).code.any (fun c => !readCodes.contains c.toNat) = true) ∧
    Meets (targetOf { TwoWirePort.init with phase := .frame }) (fun s => s.hub.targetMatch 7 0x50 = some true ∧ (s.hub.twt 7).phase = .frame) ∧
    Meets ((targetOf { TwoWirePort.init with tgt := some (asked 0x21) }).setFld (twReg 7 4) 1 1 1) (fun s => s.hub.targetMatch 7 0x50 = some true ∧
      (s.hub.twt 7).tgt = some (asked 0x21) ∧ (asked 0x21).rd = false ∧ (asked 0x21).code = some 0x21 ∧ readCodes.contains (0x21 : Byte).toNat = true ∧
      s.hub.bit (twReg 7 4) 1 = true) := by decide

abbrev txnOfClass (i cls seq : Nat) : Txn := { txn0 with src := .entry i, cls := cls, seq := seq }

theorem witness_PortTransactions :
    Meets h0 (fun s => (s.hub.pq 15).waiting = [] ∧ (s.hub.pq 15).active = none) ∧
    Meets ((h0.setPq 15 { PortQueue.init with waiting := [txnOfClass 1 2 0, txnOfClass 127 3 4, { txnOfClass 2 3 9 with at_ := 1 }] }).setFld (spReg 15 0) 0 1 1) (fun s =>
      (s.hub.pq 15).active = none ∧ txnOfClass 127 3 4 ∈ (s.hub.pq 15).waiting ∧ (txnOfClass 127 3 4).src = .entry 127 ∧
      (∀ u ∈ (s.hub.pq 15).waiting, u ≠ txnOfClass 127 3 4 → u.cls < 3 ∨ (u.cls = 3 ∧ (0 < u.at_ ∨ (0 = u.at_ ∧ 127 < u.src.place)))) ∧
      (txnOfClass 127 3 4).at_ = 0 ∧ (txnOfClass 127 3 4).src.place = 127 ∧ s.hub.bit (spReg 15 0) 0 = true ∧ s.hub.flashDue = 0 ∧
      (s.hub.spt 15).pending = false ∧ (∀ k, k < 128 → (s.hub.txe k).held = none) ∧ ∀ k, k < 64 → (s.hub.prb k).waiting = false) ∧
    Meets { (((((spActive statWords (.done 0)).setFld (ctxReg 255 8) 0 4 2).setFld (ctxReg 255 8) 8 8 127)).setStrm 255 (inState .running)) with
        tb.lock := true } (fun s => (s.hub.pq 15).active = some txn0 ∧ (s.hub.spt 15).phase = .done 0 ∧ txn0.src = .entry 127 ∧
      (s.hub.spt 15).pending = false ∧ (s.hub.txe 127).held = none ∧ s.hub.entryAbsent 127 = false ∧ s.hub.fedBy 127 = [255] ∧ s.hub.bank 255 ≠ 2 ∧ s.hub.forms 255 = true ∧
      ∀ k, k < 128 → s.hub.txOn k = true → s.hub.trig k ≠ 3) := by decide

theorem witness_PortTransactions_tw :
    Meets (h0.setPq 23 { PortQueue.init with waiting := [txn0] }) (fun s => (s.hub.pq 23).active = none ∧ txn0 ∈ (s.hub.pq 23).waiting ∧
      (s.hub.twt 7).pending = false ∧ s.hub.bit (twReg 7 0) 0 = false ∧ (∀ k, k < 128 → (s.hub.txe k).held = none) ∧
      ∀ k, k < 64 → (s.hub.prb k).waiting = false) ∧
    Meets ((h0.setTwt 7 { TwoWirePort.init with stuck := true, busy := true }).setFld (twReg 7 0) 0 1 1) (fun s => s.hub.bit (twReg 7 0) 0 = true ∧
      (s.hub.twt 7).stuck = true ∧ (s.hub.twt 7).busy = true) ∧
    Meets { (((twOf { twFrame0 with phase := .done 0 }).setFld (ctxReg 255 8) 0 4 2).setFld (ctxReg 255 8) 8 8 127).setStrm 255 (inState .running) with
        tb.lock := true } (fun s => (s.hub.pq 23).active = some txn0 ∧ (s.hub.twt 7).phase = .done 0 ∧ (s.hub.twt 7).pending = false ∧
      s.hub.entryAbsent 127 = false ∧ s.hub.fedBy 127 = [255] ∧ s.hub.bank 255 ≠ 2 ∧ s.hub.forms 255 = true) ∧
    Meets (spActive statWords (.done 2)) (fun s => (s.hub.pq 15).active = some txn0 ∧ (s.hub.spt 15).phase = .done 2 ∧ s.hub.fedBy 127 = []) := by decide

/-! ### Discovery, event recognition, engine control -/

/-- Probe 63 on SP15, select code 1, with THRESH at 2. -/
abbrev probeOf (en : Nat) (x : Probe) : Hub :=
  { ((((((h0.setFld (prReg 63 0) 0 1 en).setFld (prReg 63 0) 1 3 1).setFld (prReg 63 0) 4 6 15).setFld (prReg 63 0) 12 4 2).setReg (prReg 63 0xC)
      0xFFFFFFFF).setPrb 63 x) with mbonik := true }
abbrev inProbe (st : ProbeState) (m : Nat) : Probe := { Probe.init with state := st, misses := m }

theorem witness_ProbeCommands :
    Meets (probeOf 1 (inProbe .unknown 0)) (fun s => s.hub.pwr.state ≠ 4 ∧ s.hub.liveSids = [] ∧ s.hub.bit (prReg 63 0) 0 = true ∧ s.hub.mbonik = true ∧
      s.hub.probeMethod 63 ≠ 2 ∧ s.hub.probeMethod 63 ≠ 3 ∧ s.hub.probeMethod 63 ≠ 4 ∧ (0 ^^^ s.hub.reg (prReg 63 8)) &&& s.hub.reg (prReg 63 0xC) = 0 ∧ (s.hub.prb 63).state ≠ .present ∧
      min 15 ((s.hub.prb 63).misses + 1) < s.hub.fld (prReg 63 0) 12 4) ∧
    Meets ((probeOf 1 { inProbe .unknown 1 with seen := 1 }).setFld (prReg 63 0) 1 3 3) (fun s => s.hub.probeMethod 63 = 3 ∧ (s.hub.prb 63).seen = 1 ∧
      (s.hub.prb 63).state ≠ .present ∧ (s.hub.prb 63).state ≠ .absent ∧ s.hub.fld (prReg 63 0) 12 4 ≤ min 15 ((s.hub.prb 63).misses + 1) ∧
      s.hub.boundTo 63 = []) ∧
    Meets ((probeOf 1 (inProbe .absent 15)).setFld (prReg 63 0) 1 3 2) (fun s => s.hub.probeMethod 63 = 2 ∧ (s.hub.prb 63).state = .absent ∧
      (s.hub.grp (s.hub.groupOf (s.hub.probeIndex 63))).on = false) ∧
    Meets ((((probeOf 1 (inProbe .present 0)).setFld (prReg 63 0) 1 3 4).setFld (prReg 63 0) 4 6 1).setMac 1 { Mac.init with link := true }) (fun s =>
      s.hub.probeMethod 63 = 4 ∧ s.hub.pwr.state ≤ 1 ∧ (s.hub.mac (s.hub.probeIndex 63)).link = true ∧ (s.hub.prb 63).seen = 0) ∧
    Meets (probeOf 1 (inProbe .present 1)) (fun s => (s.hub.prb 63).state = .present ∧ (s.hub.prb 63).misses < 16 ∧
      s.hub.fld (prReg 63 0) 12 4 ≤ min 15 ((s.hub.prb 63).misses + 1) ∧ s.hub.boundTo 63 = []) ∧
    Meets (probeOf 0 Probe.init) (fun s => s.hub.bit (prReg 63 0) 0 = false ∧ s.hub.probeOk 63 = true) ∧
    Meets ((probeOf 0 Probe.init).setFld (prReg 63 0) 4 6 16) (fun s => s.hub.bit (prReg 63 0) 0 = false ∧ s.hub.probeOk 63 = false) ∧
    Meets h0 (fun s => s.hub.mbonik = false) := by decide

/-- Recogniser 127, enabled, of a kind, with HI at 4 and LO at 2, posting to queue 31. -/
abbrev recOf (kind : Nat) (x : Recog) : Hub :=
  (((((h0.setFld (recReg 127 0) 0 1 1).setReg (recReg 127 4) (BitVec.ofNat 32 kind)).setReg (recReg 127 8) 4).setReg (recReg 127 0xC) 2).setReg
    (recReg 127 0x1C) 0x3F).setRcg 127 x
abbrev valued (v : Nat) : Record := { rec0 with flg := 0, pay := BitVec.ofNat 64 v }
abbrev sampled (s : State) (v : Int) : Bool := ((s.hub.sampleAt 127 (bareFlight (valued v.toNat)) 0).map (fun m => m.x)) == some v

theorem witness_RecogniserSamples :
    Meets h0 (fun s => s.hub.fired = [] ∧ s.hub.recRuns 127 = false ∧ s.hub.taps.find? (fun e => e.1 == 127 && e.2.rcd == rec0) = none) ∧
    Meets (recOf 5 Recog.init) (fun s => s.hub.recKind 127 = 5) ∧
    Meets (recOf 0 Recog.init) (fun s => s.hub.recRuns 127 = true ∧ s.hub.pwr.state < 3 ∧ s.hub.recKind 127 = 0 ∧ s.hub.recGated 127 = false ∧
      (s.hub.rcg 127).pending = false ∧ (s.hub.rcg 127).dropped = false ∧ (valued 4).flg.getLsbD 1 = false ∧ s.hub.fld (recReg 127 4) 4 3 ≠ 7 ∧
      s.hub.combsOf 127 = [] ∧ s.hub.sampleAt 127 (bareFlight rec0) 0 = none ∧ sampled s 3 = true ∧ sampled s 4 = true ∧
      s.hub.fld (recReg 127 4) 8 2 = 0 ∧ extWord (s.hub.bit (recReg 127 4) 7) (s.hub.reg (recReg 127 8)) = 4 ∧
      extWord (s.hub.bit (recReg 127 4) 7) (s.hub.reg (recReg 127 0xC)) = 2 ∧
      (let act := s.hub.reg (recReg 127 0x1C)
       act.getLsbD 0 = true ∧ act.getLsbD 18 = false ∧ act.getLsbD 19 = false ∧ act.getLsbD 20 = false ∧ bits act 1 5 < 32 ∧
       (s.hub.eq_ (bits act 1 5)).items.length < 32)) ∧
    (∀ k : Fin 5, k.val = 3 ∨ Meets (recOf k.val Recog.init) (fun s => s.hub.recRuns 127 = true ∧ s.hub.recKind 127 = k.val ∧ s.hub.recGated 127 = false ∧
      sampled s 3 = true ∧ (s.hub.rcg 127).past.length ≤ bits (s.hub.reg (recReg 127 4)) 16 4)) ∧
    Meets (recOf 2 { Recog.init with past := [5] }) (fun s => (s.hub.rcg 127).past[bits (s.hub.reg (recReg 127 4)) 16 4]? = some 5) ∧
    Meets { recOf 0 Recog.init with taps := [(127, { bareFlight (valued 4) with seq := 1 })] } (fun s =>
      s.hub.taps.find? (fun e => e.1 == 127 && e.2.rcd == valued 4) = some (127, { bareFlight (valued 4) with seq := 1 })) ∧
    Meets (recOf 0 { Recog.init with out := true }) (fun s => (s.hub.rcg 127).out = true ∧ sampled s 1 = true ∧ sampled s 2 = true) := by decide

abbrev edge0 : WinEdge := { tick := 0, pos := 0, dom := 0 }
abbrev window0 : Window := { open_ := edge0, close := none, closedAt := 0, peak := none, samples := 0, gap := false }
/-- COMBINE 127 of recogniser 126 with WIN of 1 µs, whose input rose at the start and has fallen. -/
abbrev combOf : Hub :=
  { (((((recOf 5 { Recog.init with out := true, truth := 1 }).setReg (recReg 127 0x14) 0xFE).setReg (recReg 127 0x18) 1).setFld (recReg 126 0) 0 1 1).setRcg 126
      { Recog.init with rise := some 0 }) with tb.acc := 0x7000000000000000 }

theorem witness_WindowCommands :
    Meets h0 (fun s => ¬ (s.hub.recRuns 127 = true ∧ s.hub.recGated 127 = true) ∧ (s.hub.rcg 127).settling = none ∧ s.hub.winOver 127 3 = none) ∧
    Meets (recOf 0x8000 Recog.init) (fun s => s.hub.recRuns 127 = true ∧ s.hub.recGated 127 = true ∧ (s.hub.rcg 127).opened = none ∧
      s.hub.recKind 127 ≠ 3) ∧
    Meets (recOf 0x8000 { Recog.init with opened := some window0 }) (fun s => s.hub.recRuns 127 = true ∧ s.hub.recGated 127 = true ∧
      (s.hub.rcg 127).opened = some window0 ∧ (s.hub.rcg 127).settling = none) ∧
    Meets { recOf 0x8000 { Recog.init with settling := some window0 } with now := 255 * 64000000 } (fun s => (s.hub.rcg 127).settling = some window0 ∧ window0.peak = none ∧
      window0.closedAt + s.hub.fld (recReg 127 0x18) 16 8 * 64000000 ≤ s.hub.now) ∧
    Meets ((recOf 3 { Recog.init with settling := some window0 }).setFld (recReg 127 0x18) 16 8 1) (fun s =>
      ¬ (window0.closedAt + s.hub.fld (recReg 127 0x18) 16 8 * 64000000 ≤ s.hub.now)) ∧
    Meets combOf (fun s => s.hub.winOver 127 0 = some 160000 ∧ combInputs (s.hub.reg (recReg 127 0x14)) = [(0, 126)] ∧ (s.hub.rcg 127).pending = false ∧
      (s.hub.rcg 127).out = true ∧ s.hub.inputTrue 126 (s.hub.fld (recReg 127 0x18) 0 16) 160000 = false ∧ s.hub.fld (recReg 127 4) 8 2 = 0 ∧
      s.hub.combsOf 127 = []) := by decide

theorem witness_WindowCommands_peak :
    Meets (recOf 3 { Recog.init with settling := some { window0 with peak := some (4, 0, 0, 0, 0) } }) (fun s =>
      (s.hub.rcg 127).settling = some { window0 with peak := some (4, 0, 0, 0, 0) } ∧ s.hub.recKind 127 = 3 ∧
      extWord (s.hub.bit (recReg 127 4) 7) (s.hub.reg (recReg 127 8)) = 4 ∧ s.hub.pwr.state < 3 ∧ s.hub.combsOf 127 = []) ∧
    Meets (recOf 3 Recog.init) (fun s => s.hub.recRuns 127 = true ∧ s.hub.recGated 127 = true ∧ (s.hub.rcg 127).out = false) := by decide

theorem witness_RecogniserControl :
    Meets (recOf 0 Recog.init) (fun s => s.hub.bit (recReg 127 0) 0 = true ∧ (s.hub.rcg 127).pending = false ∧ s.hub.combsOf 127 = [] ∧
      s.hub.recOk 127 (fun off => s.hub.seen (recReg 127 off)) = true) ∧
    Meets ((recOf 5 Recog.init).setFld (recReg 127 0) 0 1 0 |>.setReg (recReg 127 0x14) 0xFE) (fun s => s.hub.bit (recReg 127 0) 0 = false ∧
      s.hub.recKind 127 = 5 ∧ s.hub.recOk 127 (fun off => s.hub.reg (recReg 127 off)) = true) ∧
    Meets h0 (fun s => s.hub.recKind 127 ≠ 5 ∧ s.hub.bit (recReg 127 0) 0 = false ∧ s.hub.recOk 127 (fun off => s.hub.reg (recReg 127 off)) = true ∧
      s.hub.recOk 127 (fun off => s.hub.seen (recReg 127 off)) = true) ∧
    Meets (h0.setReg (recReg 127 8) 1) (fun s => s.hub.bit (recReg 127 0) 0 = false ∧ s.hub.recOk 127 (fun off => s.hub.reg (recReg 127 off)) = false) ∧
    Meets { h0 with held := [(recReg 127 8, 1)] } (fun s => s.hub.recOk 127 (fun off => s.hub.seen (recReg 127 off)) = false) := by decide

abbrev engOf (st : EngState) : Hub := h0.setEng 71 { Engine.init with st := st }

theorem witness_EngineControl :
    Meets h0 (fun s => (s.hub.eng 71).st = .reset ∧ (s.hub.eng 71).sbuf = none ∧ s.hub.bit (engReg 71 0) 1 = false ∧ Initiator.path ≠ .col) ∧
    Meets (engOf .idle) (fun s => (s.hub.eng 71).st ≠ .reset ∧ (s.hub.eng 71).st.runs = true ∧ (s.hub.eng 71).sbuf = none ∧
      s.hub.bit (engReg 71 0) 1 = false) ∧
    Meets ((engOf .halted).setFld (engReg 71 0) 1 1 1) (fun s => s.hub.bit (engReg 71 0) 1 = true ∧ (s.hub.eng 71).st = .halted) ∧
    Meets (engOf .retired) (fun s => (s.hub.eng 71).st = .retired) := by decide

abbrev due (irq : Nat) : Hub := (h0.setReg (engReg 71 0x1C) (BitVec.ofNat 32 irq)).setEng 71 { Engine.init with st := .idle, sr := 0x100 }
abbrev running (_e budget : Nat) : Engine :=
  { Engine.init with st := .task, run := some { entry := { sid := 255, seq := 1, rerun := false }, used := budget, budget := budget } }

theorem witness_TrapEntry :
    Meets h0 (fun s => s.hub.interruptDue 71 = false ∧ (s.hub.eng 71).run = none) ∧
    Meets (due 0x101) (fun s => s.hub.interruptDue 71 = true) ∧ Meets (due 0x202) (fun s => s.hub.interruptDue 71 = true) ∧
    Meets (h0.setEng 71 (running 71 0)) (fun s => (s.hub.eng 71).run.any (fun r => r.budget = 0) = true) ∧
    Meets (h0.setEng 71 (running 71 256)) (fun s => (s.hub.eng 71).run.any (fun r => r.budget ≠ 0) = true ∧ (s.hub.eng 71).st = .task ∧
      (s.hub.eng 71).sr.getLsbD 9 = false) ∧
    Meets (h0.setEng 71 { running 71 256 with sr := 0x200 }) (fun s => (s.hub.eng 71).sr.getLsbD 9 = true) := by decide

/-- Engine 63 holds task 255 in slot 15, with entries in its queue, and stream 255 has it as its home. -/
abbrev taskOf (q : List DispatchEntry) (stage : Stage) : Hub :=
  { (((((h0.setReg (engReg 63 0xBC) 0x00FF8100).setFld (ctxReg 255 0x18) 0 8 0xFF).setStrm 255 { inState .running with home := some 63 }).setEng 63
      { Engine.init with st := .idle, queue := q })) with flight := [flightOf 255 stage] }

theorem witness_EngineWork :
    Meets h0 (fun s => (s.hub.eng 63).st = .reset ∧ 0x7FFF < 0x8000 ∧ s.hub.flight.find? (waitsTask 255) = none ∧ s.hub.canRun 63 = false ∧
      (s.hub.eng 63).again = [] ∧ (s.hub.eng 63).queue = [] ∧ s.hub.rp.stealing = false ∧ s.dequeTake 63 = none) ∧
    Meets (engOf .task) (fun s => ¬ ((s.hub.eng 71).st = .reset ∨ (s.hub.eng 71).st = .halted ∨ (s.hub.eng 71).st = .retired)) ∧
    Meets (taskOf [] (.toTask false)) (fun s => s.hub.flight.find? (waitsTask 255) = some (flightOf 255 (.toTask false)) ∧ (s.hub.strm 255).home = some 63 ∧
      s.hub.canHost 63 (s.hub.taskId 255) = true ∧ s.hub.rp.stealing = false ∧ (s.hub.eng 63).queue.length < 8) ∧
    Meets (taskOf [{ sid := 255, seq := 1, rerun := false }] .inTask) (fun s => s.hub.canRun 63 = true ∧
      (s.hub.eng 63).again ++ (s.hub.eng 63).queue = { sid := 255, seq := 1, rerun := false } :: [] ∧ (s.hub.eng 63).sbuf = none ∧
      s.hub.taskSlot 63 (s.hub.taskId 255) = some 15 ∧
      s.hub.flight.find? (fun f => f.sid == 255 && f.seq == 1) = some (flightOf 255 .inTask)) := by decide

/-- Engine 63's deque holds one descriptor, of task 255. -/
theorem witness_EngineWork_deque :
    let s : State := { on (taskOf [] .inTask) with mem := [(0x21BDFA, 1), (0x23B812, 0xFF)] }
    s.hub.canRun 63 = true ∧ (s.hub.eng 63).again ++ (s.hub.eng 63).queue = [] ∧ s.dequeTake 63 = some (63, 0x23B800, 15) := by decide +kernel

/-! ### Instructions -/

abbrev p0 : Pfx := Pfx.none
abbrev pw : Pfx := { p0 with wide := true }
abbrev pr : Pfx := { p0 with rep := true }
/-- A guard on predicate 7 being 1. -/
abbrev pg : Pfx := { p0 with guard := some (true, 7) }
abbrev at71 (x : Engine) : Hub := h0.setEng 71 x
abbrev stacked (n : Nat) : Engine := { Engine.init with st := .idle, stack := List.replicate n 0x8001 }
/-- Engine e, being x, may run an instruction. -/
def may (e : Nat) (x : Engine) (p : Pfx) (i : Insn) : Bool :=
  decide (e ≤ 72) && x.st.runs && !x.broken && x.left != some 0 && !x.exceeds i.cost && illegal e x p i == none && x.guard p &&
    decide (i.pops ≤ x.stack.length) && decide (x.stack.length - i.pops + i.pushes ≤ 16)
abbrev pops (e : Nat) (x : Engine) (p : Pfx) (i : Insn) : Prop := may e x p i = true

theorem may_ready (s : State) (e : Nat) (p : Pfx) (i : Insn) : may e (s.hub.eng e) p i = true ↔ s.ready e p i := by
  simp [may, State.ready, and_assoc]

abbrev run256 (n : Nat) : Engine :=
  { running 71 0 with run := some { entry := { sid := 255, seq := 1, rerun := false }, used := n, budget := 256 } }

theorem witness_InstructionChecks :
    let i := insnW p0 1 1 2 1
    Meets h0 (fun s => (s.hub.eng 71).st.runs = false) ∧
    Meets (at71 (run256 0)) (fun s => (s.hub.eng 71).st.runs = true ∧ (s.hub.eng 71).broken = false ∧ (s.hub.eng 71).left ≠ some 0 ∧ illegal 71 (s.hub.eng 71) p0 i = none ∧
      (s.hub.eng 71).guard p0 = true ∧ (s.hub.eng 71).stack.length < i.pops ∧ illegal 71 (s.hub.eng 71) pr i = some 0 ∧
      illegal 71 (s.hub.eng 71) p0 (service 1 0 0) = some 3 ∧ illegal 71 (s.hub.eng 71) pr (service 1 0 0) = some 2 ∧
      (s.hub.eng 71).guard pg = false ∧ (s.hub.eng 71).exceeds i.cost = false) ∧
    Meets (at71 (run256 256)) (fun s =>
      (s.hub.eng 71).st.runs = true ∧ (s.hub.eng 71).left = some 0) ∧
    Meets (at71 { run256 0 with breaks := [0] }) (fun s => (s.hub.eng 71).st.runs = true ∧ (s.hub.eng 71).broken = true) ∧
    Meets (at71 (run256 255)) (fun s =>
      (s.hub.eng 71).left ≠ some 0 ∧ (s.hub.eng 71).guard pg = false ∧ (s.hub.eng 71).exceeds (insn 1 2 2 2).cost = true) ∧
    Meets (at71 (stacked 16)) (fun s => illegal 71 (s.hub.eng 71) p0 (insnW p0 1 1 1 2) = none ∧ 16 < (s.hub.eng 71).stack.length - 1 + 2 ∧
      illegal 71 (s.hub.eng 71) p0 { insn 2 3 0 0 with ends := true } = some 4) := by decide

theorem witness_StackInstructions :
    pops 71 (stacked 16) p0 (insn 1 1 0 0) ∧ pops 71 (stacked 15) p0 (insnW p0 1 1 1 2) ∧ pops 71 (stacked 14) pw (insnW pw 1 1 1 2) ∧
    pops 71 (stacked 16) pw (insnW pw 1 1 1 0) ∧ pops 71 (stacked 16) pw (insnW pw 1 1 2 2) ∧ pops 71 (stacked 14) pw (insnW pw 1 1 2 3) ∧
    pops 71 (stacked 16) pw (insnW pw 1 1 2 1) ∧ pops 71 (stacked 3) p0 (insn 1 1 3 3) ∧
    pops 71 (stacked 15) p0 { insn 2 1 15 16 with legal := decide (14 ≤ 15) } ∧ (stacked 15).stack[14]? = some 0x8001 ∧
    pops 71 (stacked 15) p0 (insn 2 1 0 1) ∧ pops 71 (stacked 15) p0 (insn 3 1 0 1) ∧ pops 71 (stacked 14) p0 (insn 5 1 0 2) ∧
    pops 71 (stacked 15) p0 (insn 1 1 0 1) ∧ pops 71 (stacked 1) p0 (insn 1 1 1 2) ∧
    pops 71 (stacked 0) p0 { insn 2 1 0 1 with legal := decide ((0x1D : Byte).toNat ≤ 0x1D) } ∧
    pops 71 (stacked 1) p0 { insn 2 1 1 0 with legal := decide ((0x1D : Byte).toNat ≤ 0x1D) } ∧ pops 71 (stacked 1) p0 (insn 2 1 1 0) ∧
    pops 71 (stacked 0) p0 (insn 2 1 0 0) ∧ pops 71 (stacked 0) p0 (insn 3 1 0 0) ∧
    pops 71 (stacked 0) p0 { insn 2 1 0 0 with legal := decide ((13 : BitVec 4).toNat ≤ 13) } := by decide

theorem witness_ArithmeticInstructions :
    pops 71 (stacked 16) p0 (insnW p0 1 1 2 1) ∧ pops 71 (stacked 16) pw (insnW pw 1 1 2 1) ∧ pops 71 (stacked 1) p0 (insnW p0 1 1 1 1) ∧
    pops 71 (stacked 2) pw (insnW pw 1 1 1 1) ∧ pops 71 (stacked 16) pw (insnW pw 2 1 1 1) ∧
    pops 71 (stacked 3) pw { insn 1 1 3 2 with wideOk := true } ∧ pops 71 (stacked 2) p0 { insn 1 1 2 1 with wideOk := true } ∧
    pops 71 (stacked 2) pw { insnW pw 2 1 1 1 with legal := decide ((63 : Byte).toNat ≤ 63) } ∧
    pops 71 (stacked 4) pw { insn 1 3 4 2 with wideOk := true } ∧ pops 71 (stacked 2) p0 { insn 1 2 2 2 with wideOk := true } ∧
    pops 71 (stacked 2) p0 (insn 1 2 2 2) ∧ pops 71 (stacked 2) p0 (insn 1 18 2 2) ∧ pops 71 (stacked 3) p0 (insn 1 34 3 2) ∧
    pops 71 { stacked 2 with stack := [0, 1] } p0 (insn 1 18 2 2) ∧ pops 71 { stacked 3 with stack := [0, 1, 2] } p0 (insn 1 34 3 2) ∧
    pops 71 (stacked 4) pw { insnW pw 2 1 2 0 with legal := decide ((13 : BitVec 4).toNat ≤ 13) } ∧ pops 71 (stacked 2) pw (insnW pw 2 1 1 0) ∧
    (stacked 4).stack = pushValue true 0x80018001 (pushValue true 0x80018001 []) ∧ 0x80018001 < 2 ^ widthOf true ∧
    (stacked 2).stack = pushValue false 0x8001 (pushValue false 0x8001 []) ∧ 0x8001 < 2 ^ widthOf false := by decide

theorem witness_interrupted :
    let h : Hub := (h0.setReg (engReg 71 0x1C) 0x101).setEng 71 { stacked 3 with sr := 0x100, rc := 2 }
    Meets h (fun s => s.hub.interruptDue 71 = true ∧ (s.hub.eng 71).stack = 0x8001 :: 0x8001 :: 0x8001 :: []) ∧
    pops 71 { stacked 3 with sr := 0x100, rc := 2 } p0 (insn 1 34 3 2) ∧ pops 71 { stacked 3 with sr := 0x100, rc := 2 } p0 (insn 1 4 0 0) ∧
    pops 71 { stacked 3 with sr := 0x100, rc := 2 } pr { insn 1 2 0 0 with repOk := true } ∧
    Meets (at71 (stacked 3)) (fun s => s.hub.interruptDue 71 = false) := by decide

abbrev ends (u : Byte) : Insn := { insn 2 3 0 0 with legal := decide (u.toNat ≤ 2), ends := true }

/-- A run for the third opinion. -/
abbrev thirdRun : Engine :=
  { running 71 0 with run := some { entry := { sid := 255, seq := 1, rerun := true, third := true }, used := 0, budget := 0 } }

theorem witness_ControlInstructions :
    pops 72 (stacked 0) p0 (insn 2 3 0 0) ∧ pops 71 (stacked 0) p0 (insn 3 3 0 0) ∧ pops 71 (stacked 0) p0 (insn 4 3 0 0) ∧
    pops 71 (stacked 2) p0 (insn 1 3 2 0) ∧ pops 71 (stacked 0) p0 (insn 1 3 0 0) ∧ pops 71 (running 71 0) p0 (ends 2) ∧
    pops 71 (running 71 0) p0 (ends 0) ∧
    Meets (at71 (running 71 0)) (fun s => s.hub.engHeld 71 = false ∧ (s.hub.shd 3).live = none ∧ (s.hub.eng 71).run.isSome = true ∧
      (s.hub.eng 71).sr.getLsbD 9 = false) ∧
    Meets (h0.setStrm 255 (inState .running)) (fun s => (s.hub.strm 255).state = .running) ∧
    pops 71 thirdRun p0 { insn 2 3 0 0 with legal := true, ends := true } ∧ thirdRun.run.any (fun r => r.entry.third) = true ∧
    pops 71 (stacked 0) p0 { insn 2 4 0 0 with legal := decide ((127 : Byte).toNat ≤ 127) } ∧ pops 72 (stacked 0) p0 (insn 1 4 0 0) ∧
    Meets (at71 { stacked 0 with sr := 0x200 }) (fun s => (s.hub.eng 71).sr.getLsbD 9 = true ∧ (s.hub.eng 71).sbuf = none ∧ (s.hub.eng 71).run = none ∧
      (s.hub.eng 71).st.runs = true) ∧
    Meets (at71 (run256 255)) (fun s => (s.hub.eng 71).st.runs = true ∧ (s.hub.eng 71).left ≠ some 0 ∧ (s.hub.eng 71).sr.getLsbD 9 = false) ∧
    Meets (at71 (run256 256)) (fun s => (s.hub.eng 71).st.runs = true ∧ (s.hub.eng 71).left = some 0 ∧ (s.hub.eng 71).sr.getLsbD 9 = false) ∧
    Meets h0 (fun s => (s.hub.eng 71).st.runs = false) := by decide

/-- An engine with every base, modulo and bit-reverse flag at one value. -/
abbrev based (b ml : Half) (brf : Byte) : Engine :=
  { stacked 8 with b := (List.range 8).map (fun i => (i, b)), ml := (List.range 8).map (fun i => (i, ml)), brf := brf, rc := 4, sr := 0x400 }
abbrev mb (n : BitVec 3) (inc : Bool) (km1 : BitVec 3) : MByte := { n := n, inc := inc, km1 := km1 }

theorem witness_MemoryInstructions :
    (based 0x1FF8 8 0).base 7 + 8 ≤ 0x2000 ∧ ¬ (based 0x1FF9 8 0).base 7 + 8 ≤ 0x2000 ∧ (based 0x1FF8 8 0x80).modulo 7 = 2 ^ 3 ∧
    (based 0 0 0x80).modulo 7 = 65536 ∧
    pops 71 (based 0x1FF8 8 0) p0 { insn 3 3 0 8 with addrOk := true, legal := countOk 8 .linear } ∧
    pops 71 (based 0x1FF8 8 0) p0 { insn 4 1 8 0 with addrOk := true, legal := countOk 8 .linear } ∧
    pops 71 (based 0x1FF8 8 0x80) { p0 with addr := .brev } { insn 3 2 0 1 with addrOk := true, legal := countOk 1 .brev } ∧
    (based 0x1FF8 7 0x80).brevOk 7 .brev = false ∧ (based 0x1FF8 8 0x80).brevOk 7 .brev = true ∧ (∀ j, j < 4 → (7 : Nat) ≠ 2 ^ j) ∧
    pops 71 (based 0x1FF8 8 0) p0 { insn 3 1 0 1 with addrOk := true, legal := !(mb 7 false 0).inc && (mb 7 false 0).km1.toNat == 0 } ∧
    pops 71 (based 0x1FF8 8 0) p0 { insn 3 1 0 0 with addrOk := true } ∧ pops 71 (based 0 8 0) p0 (insn 1 1 3 0) ∧
    (based 0 8 0).cbuf.length < 8 ∧ pops 71 { based 0 8 0 with cbuf := List.replicate 8 (0, 0) } p0 (insn 1 1 3 0) ∧
    pops 71 (based 0 8 0) p0 (insn 1 4 0 0) ∧ pops 71 (based 0x1FFF 8 0) p0 { service 2 0 0 with legal := true } ∧
    (based 0x1FFF 1 0).ea 7 0 .ring + 1 ≤ 0x2000 ∧ ¬ (based 0x2000 1 0).ea 7 0 .ring + 1 ≤ 0x2000 ∧
    pops 71 (based 0 8 0) p0 (service 1 0 0) ∧ pops 71 (based 0 8 0) p0 (service 1 0 3) ∧ pops 71 (based 0 8 0) p0 (service 1 0 2) ∧
    pops 71 (based 0x1FFF 8 0) p0 { insn 1 2 0 0 with repOk := true } ∧ (based 0x1FFF 8 0).base 5 + 1 ≤ 0x2000 ∧
    pops 71 (based 0 8 0) p0 { insn 1 2 1 1 with repOk := true } ∧ pops 71 (based 0 8 0) p0 { insn 2 2 0 0 with repOk := true } ∧
    pops 71 (based 0x1FFC 8 0) pr { insn 1 2 1 1 with repOk := true } ∧ pops 71 (based 0x1FFC 8 0) pr { insn 1 2 0 0 with repOk := true } ∧
    pops 71 (based 0x1FFC 8 0) pr { insn 2 2 0 0 with repOk := true } ∧ (based 0x1FFC 8 0).left = none ∧
    (based 0x1FFC 8 0).base 4 + (based 0x1FFC 8 0).rc.toNat ≤ 0x2000 := by decide

/-- An engine whose window 3 lies at the commons, with a base and a slot. -/
abbrev windowed (b : Half) (q : Tab WinSlot) : Engine := { based b 0 0 with win := [(3, 0x20)], slots := q }
abbrev slot0 (arrived bad : Bool) : WinSlot := { addr := 0x200000, count := 8, data := some (List.replicate 8 0), arrived := arrived, bad := bad }
abbrev full4 : List (Nat × EngReq) := List.replicate 4 (71, .read 3 0x200000 1)

theorem witness_WindowInstructions :
    (windowed 8 []).access p0 (mb 7 false 7) 0 = some (8, windowed 8 []) ∧ 8 % 32768 % 8 = 0 ∧
    (windowed 4 []).access p0 (mb 7 false 7) 0 = some (4, windowed 4 []) ∧ 4 % 32768 % 8 ≠ 0 ∧
    { windowed 4 [] with ml := [(7, 7)], brf := 0x80 }.access p0 (mb 7 false 0) 0 = none ∧
    (windowed 8 []).request p0 3 (mb 7 false 3) 0 = some (0x200010, windowed 8 []) ∧ inCommons 0x200010 = true ∧
    { windowed 8 [] with win := [(3, 0x24)] }.request p0 3 (mb 7 false 3) 0 = some (0x240010, { windowed 8 [] with win := [(3, 0x24)] }) ∧
    inCommons 0x240010 = false ∧
    pops 71 (windowed 8 []) p0 { insn 3 1 8 0 with addrOk := true, legal := [1, 2, 4, 8].contains 8 && countOk 8 .linear } ∧
    pops 71 (windowed 8 []) p0 { insn 3 1 0 0 with addrOk := true, legal := (4 : Nat) == 4 && countOk 4 .linear } ∧
    pops 71 (windowed 8 []) p0 { insn 4 3 4 0 with addrOk := true, legal := [1, 2, 4].contains 4 && countOk 4 .linear } ∧
    pops 71 (windowed 8 [(3, slot0 true false)]) p0 (insn 2 2 0 0) ∧
    4 ≤ (full4.filter (fun q => q.1 == 71)).length ∧
    Meets { at71 (windowed 8 []) with outq := full4 } (fun s => 4 ≤ (s.hub.outq.filter (fun q => q.1 == 71)).length) ∧
    Meets (at71 (windowed 8 [])) (fun s => tget (s.hub.eng 71).slots 3 = none ∧ s.hub.outq = [] ∧
      (∀ j ∈ s.hub.engines, j.1 ≠ 71 → j.2.res ≠ some 0x200010) ∧ (s.hub.eng 71).res ≠ some (0x200010 / 8 * 8)) ∧
    Meets ((at71 { windowed 8 [] with res := some 0x200010 }).setEng 70 { Engine.init with res := some 0x200010 }) (fun s =>
      (s.hub.eng 71).res = some (0x200010 / 8 * 8) ∧ ¬ 4 ≤ (s.hub.outq.filter (fun q => q.1 == 71)).length) ∧
    Meets (at71 (windowed 8 [(3, slot0 false false)])) (fun s => (tget (s.hub.eng 71).slots 3).any (fun q => !q.arrived) = true) ∧
    Meets (at71 (windowed 8 [(3, slot0 true false)])) (fun s => tget (s.hub.eng 71).slots 3 = some (slot0 true false) ∧
      (slot0 true false).data.isSome = true ∧ (s.hub.eng 71).stack.length + 8 ≤ 16) ∧
    Meets (at71 { windowed 8 [(3, slot0 true false)] with stack := List.replicate 9 0 }) (fun s => 16 < (s.hub.eng 71).stack.length + 8) ∧
    Meets (at71 (windowed 8 [(3, slot0 true true)])) (fun s => (tget (s.hub.eng 71).slots 3).any (fun q => q.arrived && q.bad) = true ∧
      (s.hub.eng 71).sr.getLsbD 9 = false) ∧
    pops 71 { windowed 0x1FFF [] with rc := 0 } pr { insn 2 3 0 0 with repOk := true } ∧ (windowed 0x1FFF []).base 4 < 0x2000 ∧
    pops 71 (windowed 0x1FFF []) p0 { insn 2 3 0 0 with repOk := true } ∧
    pops 71 { windowed 0x1FF8 [] with rc := 8 } pr { insn 2 3 0 0 with repOk := true } ∧ (windowed 0x1FF8 []).base 5 % 8 = 0 ∧ (windowed 0x1FF8 []).base 4 + 8 ≤ 0x2000 ∧
    (windowed 0x1FF8 []).left = none ∧ (windowed 0x1FF8 []).run = none ∧ h0.pair = none := by decide

/-! ### Fabric, Layout Table, key store -/

theorem witness_FabricCommands :
    Meets h0 (fun s => 0x01FFFFFC + 4 ≤ 0x02000000 ∧ s.hub.blocked 0x11FFFC = false ∧ regionOf 0x118000 ≠ .unmapped ∧ regionOf 0x0FFFFC ≠ .unmapped) ∧
    regionOf 0x02000000 = .unmapped ∧ (match regionOf 0x10040 with
      | .regs _ => true
      | _ => false) = true ∧
    Meets { h0 with lc := 2 } (fun s => s.hub.blocked 0x11FFFC = true ∧ s.hub.blocked 0x117FFC = false ∧ Initiator.path ≠ .col) ∧
    Meets (h0.setStrm 255 { Stream.init with fresh := false }) (fun s => (s.hub.strm 255).fresh = false ∧ s.hub.outq = [] ∧ tget (s.hub.eng 72).slots 3 = none) ∧
    Meets (h0.setEng 72 (windowed 0 [(3, slot0 false false)])) (fun s => tget (s.hub.eng 72).slots 3 = some (slot0 false false) ∧
      (slot0 false false).arrived = false ∧ (slot0 false false).data.isSome = true) ∧
    Meets h0 (fun s => (s.hub.shd 2).live = none) ∧
    Meets (h0.setShd 2 { Shadow.init with live := some 47, phase := 2 }) (fun s => (s.hub.shd 2).live = some 47 ∧ (s.hub.shd 2).phase = 2) := by decide

theorem witness_FabricCommands_parity :
    (match regionOf 0x3FC with
      | .regs l => l.blk == .layout
      | _ => false) = true ∧
    (match regionOf 0xD1F1C with
      | .regs l => l.blk == .eq && decide (0x10 ≤ l.off ∧ l.off < 0x20)
      | _ => false) = true ∧
    72 < initiatorNumber .path ∧ Meets h0 (fun s => (s.hub.eng 71).reading 0x200000 = none ∧ s.hub.outq = []) ∧
    Meets (h0.setEng 71 (windowed 0 [(3, slot0 false false)])) (fun s => (s.hub.eng (initiatorNumber (.eng 71))).reading 0x200000 = some (3, slot0 false false)) ∧
    Meets { h0 with flight := [flightOf 255 .inTask, { flightOf 255 .result with seq := 2 }] } (fun s => s.hub.oldest 255 = some (flightOf 255 .inTask) ∧
      ∃ g ∈ dropFlight 255 s.hub.flight, g.sid = 255 ∧ 1 < g.seq.toNat) ∧
    Meets { h0 with flight := [flightOf 255 .inTask] } (fun s => ∀ g ∈ dropFlight 255 s.hub.flight, g.sid = 255 → g.seq.toNat ≤ 1) ∧
    Meets (h0.setShd 3 { Shadow.init with live := some 63, phase := 2 }) (fun s => (s.hub.shd 3).live = some 63 ∧ (s.hub.shd 3).phase = 2) := by decide

abbrev image0 (arb : BitVec 64) : RunningImage := { version := 1, enc := false, slot := 0, revoke := false, arb := arb, dbgHash := 0, taskHash := 0 }
abbrev dueArb (arb : BitVec 64) (bad : BitVec 16) : Hub :=
  { h0 with mbonik := true, sec := { Sec.init with image := some (image0 arb), arbDue := true, arbBad := bad } }

theorem witness_TableAndKeyCommands :
    Meets h0 (fun s => s.hub.lay.next = none ∧ s.hub.lc = 0 ∧ s.hub.sec.image = none) ∧
    Meets { h0 with mbonik := true, lay := { Layout.init with next := some LayoutFacts.init } } (fun s => s.hub.lay.next = some LayoutFacts.init ∧
      s.hub.mbonik = true ∧ s.hub.pwr.state ≠ 4) ∧
    Meets { h0 with lc := 1 } (fun s => s.hub.lc = 1) ∧
    Meets { h0 with lc := 3 } (fun s => 2 ≤ s.hub.lc.toNat ∧ Initiator.path ≠ .col) ∧
    0x118000 ≤ 0x11FFFF ∧ (0x118300 - 0x118000) / 4 * 4 < 0x310 ∧ 0x300 ≤ (0x118300 - 0x118000) / 4 * 4 ∧ (0x118080 - 0x118000) / 4 * 4 = 0x080 ∧
    (0x11827F - 0x118000) / 4 * 4 < 0x280 ∧ 0x200 ≤ (0x118200 - 0x118000) / 4 * 4 ∧ (0x11807F - 0x118000) / 4 * 4 < 0x080 ∧
    Meets { h0 with mbonik := true, pwr := { Power.init with state := 4 }, lay := { Layout.init with next := some LayoutFacts.init } } (fun s =>
      s.hub.pwr.state = 4 ∧ s.hub.mbonik = true) ∧
    Meets (dueArb 0 0) (fun s => s.hub.sec.image = some (image0 0) ∧ (image0 0).arb.toNat ≤ s.arbCounter) ∧
    Meets (dueArb 1 0x7FFF) (fun s => s.hub.sec.image = some (image0 1) ∧ s.hub.mbonik = true ∧ s.hub.sec.arbDue = true ∧ s.arbCounter < 1 ∧
      (image0 1).revoke = false ∧ (List.range 16).filter (fun i => !s.arbUsed i) = [15]) := by decide

/-! ### Repair, ageing, power, clock -/

abbrev shadowed (k : Nat) (x : Shadow) : Hub := { h0.setShd k x with mbonik := true }
abbrev voting (n w : Nat) : Shadow := { Shadow.init with live := some n, spare := some w, phase := 3 }
abbrev area (n : Nat) (due : List (BitVec 64)) : Hub := { h0 with mbonik := true, rp := { Repair.init with otp := List.replicate n 0, due := due } }

theorem witness_RepairCommands :
    Meets h0 (fun s => s.hub.dwellUnits 3 = none ∧ s.hub.dwellOver 3 = false ∧ (s.hub.shd 3).phase ≠ 1 ∧ s.hub.rp.due = [] ∧
      s.hub.wantsStealing = none ∧ s.hub.mbonik = false ∧ (s.hub.shd 3).phase ≠ 3) ∧
    Meets { (taskOf [] .ready).setFld 0x100000 0 1 1 with mbonik := true } (fun s => (s.hub.dwellUnits 3).isSome = true) ∧
    Meets (shadowed 3 { Shadow.init with live := some 63, spare := some 71, phase := 1, elapsed := 1000, compared := 16 }) (fun s =>
      s.hub.dwellOver 3 = true ∧ (s.hub.shd 3).phase = 1 ∧ (s.hub.shd 3).live = some 63 ∧ (s.hub.shd 3).spare = some 71 ∧
      Memory.wf s.mem = true ∧ s.hub.physOf 0x50 63 < 72 ∧ 71 ≠ s.hub.physOf 0x50 63) ∧
    Meets (area 63 [5]) (fun s => s.hub.rp.due = 5 :: [] ∧ s.hub.mbonik = true ∧ s.hub.pwr.state ≤ 1 ∧ ¬ 64 ≤ s.hub.rp.otp.length) ∧
    Meets (area 64 [5]) (fun s => 64 ≤ s.hub.rp.otp.length) ∧
    Meets { (h0.setFld 0x100000 2 1 1) with mbonik := true, rp := { Repair.init with high := 10 } } (fun s => s.hub.wantsStealing = some true) ∧
    Meets (shadowed 2 (voting 31 33)) (fun s => (s.hub.shd 2).outs = [] ∧ (s.hub.shd 2).smps = [] ∧ (s.hub.shd 2).phase = 3 ∧
      (s.hub.shd 2).live = some 31 ∧ (s.hub.shd 2).spare = some 33 ∧ s.hub.unitState 0x12 33 = 2 ∧ 33 < physicalCount 0x12 ∧
      31 < logicalCount 0x12 ∧ 33 ≠ s.hub.physOf 0x12 31) ∧
    Meets (shadowed 3 (voting 63 71)) (fun s => (s.hub.shd 3).phase = 3 ∧ (s.hub.shd 3).live = some 63 ∧ (s.hub.shd 3).spare = some 71 ∧
      s.hub.engOpinion (s.hub.physOf 0x50 63) .neither = .neither ∧ s.hub.engOpinion (s.hub.physOf 0x50 63) .shadow = .shadow ∧
      s.hub.unitState 0x50 71 = 2 ∧ 71 < physicalCount 0x50 ∧ 63 < logicalCount 0x50 ∧ 71 ≠ s.hub.physOf 0x50 63) ∧
    Meets (shadowed 3 { Shadow.init with live := some 63, spare := some 71, phase := 2, elapsed := 1000, compared := 16 }) (fun s =>
      s.hub.dwellOver 3 = true ∧ (s.hub.shd 3).phase = 2 ∧ (s.hub.shd 3).spare = some 71) := by decide

abbrev aged (a : Ageing) : Hub := { h0 with mbonik := true, age := a }

theorem witness_AgeingCommands :
    Meets { h0 with pwr := { Power.init with state := 4 } } (fun s => s.hub.pwr.state = 4 ∧ 3 ≤ s.hub.pwr.state) ∧
    Meets h0 (fun s => s.hub.pwr.state ≠ 4 ∧ s.hub.age.hot = false ∧ (List.replicate 32 (0 : BitVec 16)).length = 32 ∧
      (List.replicate 8 (601 : BitVec 12)).length = 8 ∧ (∀ v ∈ List.replicate 8 (600 : BitVec 12), v.toInt ≤ 600) ∧
      (601 : BitVec 12) ∈ List.replicate 8 (601 : BitVec 12) ∧ 600 < (601 : BitVec 12).toInt ∧ s.hub.mbonik = false ∧ s.hub.age.relock = none) ∧
    Meets (aged { Ageing.init with guardDue := some 31 }) (fun s => s.hub.age.guardDue = some 31 ∧ s.hub.age.guardDue ≠ some 30 ∧ s.hub.pwr.state < 3 ∧
      s.hub.age.fault = false ∧ s.hub.age.plan < 32 ∧ s.hub.age.slackOf 31 < 10) ∧
    Meets (aged { Ageing.init with guardDue := some 31, slack := [(31, 10)] }) (fun s => s.hub.age.guardDue = some 31 ∧ 10 ≤ s.hub.age.slackOf 31) ∧
    Meets (aged Ageing.init) (fun s => s.hub.mbonik = true ∧ s.hub.pwr.state < 3 ∧ s.hub.age.fresh = false) ∧
    Meets ((aged { Ageing.init with fresh := true, guarded := true }).setFld 0x100100 0 1 0) (fun s => s.hub.age.fresh = true ∧ s.hub.bit 0x100100 0 = false ∧
      s.hub.age.guarded = true) ∧
    Meets ((aged { Ageing.init with fresh := true, plan := 31, low := [(0, 25), (31, 24)] }).setFld 0x100100 0 1 1) (fun s => s.hub.bit 0x100100 0 = true ∧
      s.hub.age.guarded = false ∧ s.hub.age.lowOf 31 < 25 ∧ s.hub.age.plan < 32 ∧ s.hub.age.fault = false) := by decide

abbrev volts : PlanStep := { volt := true, vid := 16, before := 20, gain := some 10 }

theorem witness_AgeingCommands_plan :
    Meets ((aged { Ageing.init with fresh := true, plan := 32, low := [(10, 24)] ++ (List.range 21).map (fun i => (11 + i, 25)) }).setFld 0x100100 0 1 1) (fun s =>
      s.hub.bit 0x100100 0 = true ∧ 32 ≤ s.hub.age.plan ∧ s.hub.age.lowOf 10 < 25 ∧ (∀ j : Fin 32, 10 < j.val → s.hub.age.lowOf 10 ≤ s.hub.age.lowOf j.val) ∧
      s.hub.age.step < 3 ∧ s.hub.age.clock = none ∧ s.hub.pwr.state ≤ 1) ∧
    Meets { (aged { Ageing.init with fresh := true, low := (List.range 32).map (fun i => (i, 45)), steps := [volts] }).setFld 0x100100 0 1 1 with
        now := 600 * 64000000000 } (fun s => s.hub.shortBanks = [] ∧ (∀ j, j < 32 → s.hub.age.lowOf 31 ≤ s.hub.age.lowOf j) ∧ 25 ≤ s.hub.age.lowOf 31 ∧
      s.hub.age.steps.getLast? = some volts ∧ 35 ≤ s.hub.age.lowOf 31 - 10 ∧ s.hub.age.changedAt + 600 * 64000000000 ≤ s.hub.now ∧
      s.hub.age.fault = false) := by decide

theorem witness_AgeingCommands_avs :
    Meets (aged { Ageing.init with avs := 1, post := some 6 }) (fun s => s.hub.age.avs = 1 ∧ s.hub.age.post = some 6) ∧
    Meets (aged { Ageing.init with avs := 1 }) (fun s => s.hub.age.post = none ∧ s.hub.age.avs ≠ 2) ∧
    Meets (aged { Ageing.init with avs := 2 }) (fun s => s.hub.age.avs = 2 ∧ s.hub.age.vid = s.hub.age.plan - s.hub.pwr.dropped ∧ s.hub.age.post = none ∧
      s.hub.age.avs ≠ 1) ∧
    Meets (aged { Ageing.init with avs := 2, post := some 1 }) (fun s => s.hub.age.post = some 1 ∧ s.hub.pwr.state ≠ 4) ∧
    Meets (aged { Ageing.init with avs := 2, plan := 32 }) (fun s => ¬ s.hub.age.vid = s.hub.age.plan - s.hub.pwr.dropped ∧ s.hub.age.fault = false) ∧
    Meets (aged { Ageing.init with plan := 0 }) (fun s => s.hub.age.avs = 0 ∧ ¬ s.hub.age.vid = s.hub.age.plan - s.hub.pwr.dropped) ∧
    Meets { aged { Ageing.init with avs := 2, plan := 32, fault := true, post := some 1 } with pwr := { Power.init with state := 4 } } (fun s =>
      s.hub.age.fault = true ∧ s.hub.age.post = some 1 ∧ s.hub.pwr.state = 4) ∧
    Meets { h0 with age := { Ageing.init with relock := some 2 } } (fun s => s.hub.age.relock = some 2 ∧ s.hub.mbonik = false) := by decide

abbrev powered (p : Power) : Hub := { h0 with mbonik := true, pwr := p }

theorem witness_PowerCommands :
    Meets (h0.setReg 0x1010C 0x8) (fun s => s.hub.bit 0x1010C 3 = true ∧ s.hub.bit 0x1010C (4 + 3) ≠ true) ∧
    Meets ({ (h0.setFld 0x1010C 9 1 1) with pwr := { Power.init with state := 3 } }) (fun s => 3 ≤ s.hub.pwr.state ∧ s.hub.bit 0x1010C 9 = true) ∧
    Meets h0 (fun s => ¬ 3 ≤ s.hub.pwr.state ∧ s.hub.alarmDue = false ∧ s.hub.angWakeDue = false ∧ s.hub.mbonik = false ∧ s.hub.entryDue = false ∧
      s.hub.exitTo = none) ∧
    Meets (h0.setFld 0x1010C 10 1 1) (fun s => s.hub.alarmDue = true) ∧
    Meets { (h0.setReg 0x30180 0x00010101) with pwr := { Power.init with state := 3 }, ang := { Angle.init with wakeEdges := [5] } } (fun s =>
      s.hub.angWakeDue = true) ∧
    Meets (powered { Power.init with entering := true, target := 1 }) (fun s => s.hub.mbonik = true ∧ s.hub.pwr.entering = true ∧ s.hub.governed.1 ≠ 1) ∧
    Meets ((powered { Power.init with state := 0 }).setReg 0x10100 0x4FFFF) (fun s => s.hub.mbonik = true ∧ s.hub.pwr.state < s.hub.governed.1) ∧
    Meets { (powered { Power.init with target := 1, since := some 0 }) with now := 255 * 64000000 } (fun s => s.hub.entryDue = true ∧ s.hub.pwr.target = 1) ∧
    Meets { (powered { Power.init with target := 4, since := some 0 }) with now := 255 * 64000000 } (fun s => s.hub.entryDue = true ∧ s.hub.pwr.target ≠ 1 ∧
      s.hub.entryWaits 4 = false ∧ s.hub.pwr.state < 3) ∧
    Meets { (powered { Power.init with target := 2, since := some 0 }) with now := 255 * 64000000, ptp := { Ptp.init with busy := true } } (fun s =>
      s.hub.entryDue = true ∧ s.hub.entryWaits 2 = true) ∧
    Meets { h0 with pwr := { Power.init with state := 4, dropped := 8, holds := [(0, 9)] }, age := { Ageing.init with avs := 1 } } (fun s => s.hub.exitTo = some 0 ∧
      3 ≤ s.hub.pwr.state ∧ s.hub.pwr.dropped ≠ 0 ∧ s.hub.age.avs ≠ 0) ∧
    Meets { h0 with pwr := { Power.init with state := 4, dropped := 8, holds := [(0, 9)] }, age := { Ageing.init with vid := 8 } } (fun s =>
      s.hub.age.avs = 0 ∧ s.hub.age.fault = false ∧ s.hub.age.vid ≠ s.hub.age.plan) ∧
    Meets { h0 with pwr := { Power.init with state := 3, holds := [(2, 9)] }, age := { Ageing.init with plan := 32, fault := true } } (fun s =>
      s.hub.exitTo = some 2 ∧ ¬ (3 ≤ s.hub.pwr.state ∧ (s.hub.pwr.dropped ≠ 0 ∨ s.hub.age.vid ≠ s.hub.age.plan ∧ s.hub.age.fault = false ∨ s.hub.age.avs ≠ 0))) ∧
    Meets { h0 with pwr := { Power.init with state := 4, holds := [(0, 9)] } } (fun s => s.hub.exitTo = some 0 ∧ s.hub.pwr.dropped = 0 ∧
      s.hub.age.vid = s.hub.age.plan ∧ s.hub.age.avs = 0) := by decide

theorem witness_PowerCommands_draining :
    Meets ({ (powered { Power.init with target := 1, since := some 0 }) with now := 255 * 64000000 }.setStrm 255 (inState .draining)) (fun s =>
      s.hub.entryDue = true ∧ s.hub.pwr.target = 1 ∧ s.hub.liveSids = [255] ∧ (s.hub.strm 255).state = .draining) := by decide

theorem witness_ClockCommands :
    Meets { h0 with tb := { TimeBase.init with holdover := true } } (fun s => s.hub.tb.holdover = true ∧ s.hub.supply.getLsbD 2 = false) ∧
    Meets { h0 with ang := { Angle.init with crank := { Crank.init with state := .sync720 } } } (fun s => s.hub.tb.holdover = false ∧ s.hub.tb.onCrystal = false ∧
      s.hub.ang.crank.state = .sync720) ∧
    Meets { h0 with pwr := { Power.init with state := 4 } } (fun s => s.hub.pwr.state = 4) ∧
    Meets h0 (fun s => s.hub.pwr.state ≠ 4 ∧ s.hub.mbonik = false ∧ s.hub.schPend = false ∧ (∀ k, k < 4 → (s.hub.shd k).phase = 0) ∧
      (s.hub.eng 71).st ≠ .retired) := by decide

/-! ### Ethernet, network time, transports -/

/-- MAC 1 is enabled in a mode, and is as given. -/
abbrev macOf (x : Mac) : Hub := (h0.setFld (macReg 1 0) 0 1 1).setMac 1 x
abbrev linked : Mac := { Mac.init with link := true }
abbrev good0 : LinkWord := { sync := true, up := true, gig := true, full := true }
abbrev frameOf (len : Nat) (b : RxBody) : RxFrame := { len := len, fcsOk := true, dst := 0xFFFFFFFFFFFF, capTs := 0, capFrac := 15, body := b }
/-- Ring 127 feeds datagrams of MAC 1, its oldest record having waited through FLUSH_MS. -/
abbrev ringDue (due : List Nat) : Hub :=
  { (((((macOf linked).setFld (ringReg 127 0) 0 1 1).setFld (ringReg 127 8) 1 2 2).setFld (ringReg 127 0x0C) 25 7 1).setRing 127
      { Ring.init with wr := 1, dates := [(0, 0)] }) with now := 64000000, dgDue := due }

theorem witness_EthernetCommands :
    Meets h0 (fun s => (s.hub.mac 1).link = false ∧ s.hub.macOn 1 = false ∧ (s.hub.mac 1).frames.head? ≠ some .sync ∧ s.hub.ptp.busy = false ∧
      s.hub.pwr.state ≤ 1 ∧ s.hub.ringOn 127 = false ∧ s.hub.datagramMac 127 = none) ∧
    Meets (macOf linked) (fun s => (s.hub.mac 1).link = true ∧ s.hub.macOn 1 = true ∧ s.hub.supply.getLsbD 1 = false ∧ s.hub.supply.getLsbD 4 = false ∧
      s.hub.linkGood 1 good0 = true ∧ s.hub.linkGood 1 { good0 with sync := false } = false ∧ (s.hub.mac 1).pause = none ∧ (s.hub.mac 1).frames = [] ∧
      (s.hub.mac 1).dg = none ∧ s.hub.bit (macReg 1 0) 4 = false ∧ s.hub.macAccepts 1 0xFFFFFFFFFFFF = true ∧ 1 ≠ 2) ∧
    Meets { (macOf linked).setFld (macReg 1 0) 4 2 3 with pwr := { Power.init with state := 1 } } (fun s => s.hub.pwr.state = 1 ∧
      s.hub.macOn 1 = true ∧ s.hub.bit (macReg 1 0) 5 = true ∧ s.hub.bit (macReg 1 0) 4 = true) ∧
    Meets (macOf { linked with dg := some (127, []) }) (fun s => (s.hub.mac 1).dg.isSome = true ∧ (s.hub.mac 1).frames = []) ∧
    Meets (macOf { linked with frames := [.delayReq, .sync] }) (fun s => (s.hub.mac 1).frames = .delayReq :: [.sync]) ∧
    Meets { (macOf { linked with frames := [.sync] }) with tb := { TimeBase.init with epochValid := true } } (fun s => (s.hub.mac 1).frames = .sync :: [] ∧
      s.hub.tb.epochValid = true) ∧
    Meets (macOf { linked with frames := [.sync] }) (fun s => s.hub.tb.epochValid = false) := by decide

theorem witness_EthernetCommands_frames :
    (frameOf 63 .other).len < 64 ∧ 1522 < (frameOf 1523 .other).len ∧
    ¬ ((frameOf 64 (.pause 0xFFFF)).fcsOk = false ∨ (frameOf 64 (.pause 0)).len < 64 ∨ 1522 < (frameOf 1522 (.arp 0 1 2)).len) ∧
    Meets (((macOf linked).setFld (macReg 1 0x14) 0 1 1).setReg (macReg 1 0x10) 0xA000001) (fun s => s.hub.bit (macReg 1 0x14) 0 = true ∧
      s.hub.reg (macReg 1 0x10) = 0xA000001 ∧ s.hub.macAccepts 1 (frameOf 64 (.arp 0xA000001 1 2)).dst = true) ∧
    Meets (macOf linked) (fun s => (256 : Nat) ≠ s.hub.fld 0xF7000 8 8) ∧
    Meets { h0 with ptp := { Ptp.init with busy := true } } (fun s => s.hub.ptp.busy = true ∧ s.hub.ptp.reads = false) ∧
    Meets { h0 with ptp := { Ptp.init with busy := true, reads := true } } (fun s => s.hub.ptp.busy = true ∧ s.hub.ptp.reads = true) ∧
    Meets (ringDue []) (fun s => s.hub.ringOn 127 = true ∧ (s.hub.ringMac 127).isSome = true ∧ s.hub.flushOver 127 = true ∧ 127 ∉ s.hub.dgDue) ∧
    Meets (ringDue [127]) (fun s => 127 ∈ s.hub.dgDue ∧ s.hub.datagramMac 127 = some 1) := by decide

/-- PTP with the roles of both ports, running, on a linked MAC 1. -/
abbrev ptpOf (r0 r1 : Nat) (x : Ptp) : Hub :=
  { (((macOf linked).setReg 0xF7000 (BitVec.ofNat 32 (1 + r0 * 2 ^ 16 + r1 * 2 ^ 18))).setFld 0xF7004 0 1 1) with mbonik := true, ptp := x }
abbrev sync0 (ns : Nat) : SyncObs := { capTs := 0, capFrac := 0, originS := 0, originNs := ns, corr := 0, mld := 0, logSync := 0 }
abbrev gm0 : GmData := { gmId := 1, clockClass := 6, stepsRemoved := 0 }

theorem witness_PrecisionTimeCommands :
    Meets h0 (fun s => s.hub.bit 0xF7004 0 = false ∧ s.hub.rolesOk = true ∧ s.hub.ptpSends 1 = false ∧ s.hub.mbonik = false) ∧
    Meets ((h0.setFld 0xF7000 16 2 1).setFld 0xF7000 18 2 1) (fun s => s.hub.bit 0xF7004 0 = false ∧ s.hub.rolesOk = false) ∧
    Meets (ptpOf 0 2 Ptp.init) (fun s => s.hub.bit 0xF7004 0 = true ∧ s.hub.ptpSends 1 = true ∧ s.hub.fld 0xF7000 (16 + 2 * 1) 2 = 2 ∧
      [0, 1].find? (fun k => s.hub.fld 0xF7000 (16 + 2 * k) 2 == 1) = none) ∧
    Meets (ptpOf 1 2 { Ptp.init with gm := some gm0 }) (fun s => [0, 1].find? (fun k => s.hub.fld 0xF7000 (16 + 2 * k) 2 == 1) ≠ none ∧
      s.hub.ptp.gm = some gm0 ∧ s.hub.ptpSends 1 = true) ∧
    Meets (ptpOf 0 1 { Ptp.init with state := 2 }) (fun s => s.hub.ptpSends 1 = true ∧ s.hub.fld 0xF7000 0 1 = 1 ∧ s.hub.fld 0xF7000 18 2 = 1) ∧
    Meets (ptpOf 0 3 Ptp.init) (fun s => s.hub.ptpSends 1 = true ∧ s.hub.fld 0xF7000 18 2 = 3 ∧ ¬ s.hub.fld 0xF7000 18 2 = 1) ∧
    Meets ((ptpOf 0 1 { Ptp.init with state := 2 }).setReg 0xF7008 0x00010001) (fun s => s.hub.bit 0xF7008 0 = true ∧ s.hub.ptp.state = 2 ∧
      s.hub.fld 0xF7008 16 16 = 1) ∧
    Meets ((ptpOf 0 1 { Ptp.init with state := 2 }).setReg 0xF7008 0) (fun s => s.hub.bit 0xF7008 0 = false) := by decide

/-- The link is READY; transport k is as given. -/
abbrev linkOf (y : HostLink) (k : Nat) (x : Transport) : Hub := { h0.setXp k x with hl := { y with ready := true } }
abbrev takesIn : HostLink := { HostLink.init with sel := true, writes := true, reads := true }
abbrev w0 : Half := 0x0100
abbrev v0 : Half := 0x0700
abbrev twAsked (code : Byte) (rd pec : Bool) : Hub :=
  { (h0.setTwt 7 { TwoWirePort.init with tgt := some { addr := 0x50, pec := pec, code := some code, rd := rd, first := 0x50, item := 0x77 } }) with
    hl := { HostLink.init with ready := true } }

theorem witness_TransportCommands :
    Meets { h0 with pwr := { Power.init with state := 3 } } (fun s => 3 ≤ s.hub.pwr.state ∧ s.hub.bit 0x1010C 9 = false) ∧
    Meets h0 (fun s => s.hub.pwr.state < 3 ∧ s.hub.hl.ready = false ∧ (s.hub.xp 0).inbuf = [] ∧ s.hub.receives 12 = false ∧ s.hub.replyReady 12 = false ∧
      s.hub.targetFrame 7 0x10 false = none) ∧
    Meets ((linkOf HostLink.init 0 Transport.init).setFld 0xC0000 0 1 0) (fun s => s.hub.hl.ready = true ∧ (s.hub.xp 0).out = [] ∧ s.hub.bit 0xC0000 0 = false) ∧
    Meets ((linkOf HostLink.init 0 Transport.init).setFld 0xC0000 0 1 1) (fun s => s.hub.bit 0xC0000 0 = true ∧ (3 : Half) ≠ 1 ∧ (3 : Half) ≠ 2) ∧
    Meets (linkOf takesIn 0 { Transport.init with inbuf := [1] }) (fun s => (s.hub.xp 0).inbuf ≠ []) ∧
    Meets (linkOf takesIn 0 Transport.init) (fun s => (s.hub.xp 0).inbuf = [] ∧ (s.hub.xp 0).kept = [] ∧ s.hub.receives 0 = true ∧ (w0 >>> 8) ≠ 0 ∧
      v0.toNat % 256 ≤ 250 ∧ crc16 [w0, v0] ≠ 0 ∧ (s.hub.xp 0).tags.length < 16 ∧ hiByte v0 ∉ (s.hub.xp 0).tags) ∧
    Meets (linkOf takesIn 0 { Transport.init with tags := [7] }) (fun s => hiByte v0 ∈ (s.hub.xp 0).tags) ∧
    (let p := [crc16 [w0, v0]]
     p.length = v0.toNat % 256 + 1 ∧ crc16 (w0 :: v0 :: p).dropLast = p.getLastD 0 ∧ crc16 (w0 :: v0 :: [0]).dropLast ≠ [(0 : Half)].getLastD 0) ∧
    Meets (linkOf takesIn 0 { Transport.init with out := [[1, 2]] }) (fun s => s.hub.replyReady 0 = true ∧ (s.hub.xp 0).out = [1, 2] :: [] ∧
      (s.hub.xp 0).source = none) := by decide +kernel

abbrev dg0 : MgmtDg := { v6 := false, srcIp := 1, srcPort := 2, toHub := true, dstPort := 0xFFFF, fragment := false, bytes := [] }
/-- The management port of MAC 1 at UDP port 65535, with its four slots. -/
abbrev managed (x : Transport) : Hub :=
  { ((((((macOf linked).setReg 0xC0050 0xFFFF0003).setXp 9 x).setXp 10 x).setXp 11 x).setXp 12 x) with hl := { HostLink.init with ready := true } }

theorem witness_TransportCommands_ports :
    Meets { twAsked 0x10 false false with hl := HostLink.init } (fun s => (s.hub.targetFrame 7 0x10 false).isSome = true ∧ s.hub.hl.ready = false) ∧
    Meets ((twAsked 0x10 false true).setTwt 7 { (twAsked 0x10 false true).twt 7 with pending := true }) (fun s => (s.hub.targetFrame 7 0x10 false).isSome = true ∧
      ¬ ((s.hub.twt 7).pending = false ∨ (s.hub.twt 7).phase = .frame)) ∧
    Meets (twAsked 0x10 false true) (fun s => (s.hub.twt 7).pending = false ∧ (s.hub.targetFrame 7 0x10 false).isSome = true ∧ s.hub.hl.ready = true ∧ (s.hub.xp 8).inbuf = []) ∧
    (let f : TargetFrame := { addr := 0x50, pec := false, code := some 0x10, rd := false, first := 0x50, item := 0 }
     writeEnd f [2, 5, 6] 3 = .good ∧ writeEnd { f with pec := true } [2, 5, 6, crc8 [0xA0, 0x10, 2, 5, 6] + 1] 3 = .pec) ∧
    Meets (h0.setXp 8 { Transport.init with inbuf := [1] }) (fun s => (s.hub.xp 8).inbuf ≠ []) ∧
    Meets ((twAsked 0x11 true false).setXp 8 { Transport.init with out := [[1, 2]] }) (fun s => (s.hub.targetFrame 7 0x11 true).isSome = true ∧
      (s.hub.xp 8).out = [[1, 2]] ∧ (s.hub.xp 8).sent = 0 ∧ (s.hub.xp 8).source = none ∧ 2 * [1, 2].length ≤ 255) ∧
    Meets (twAsked 0x20 true false) (fun s => (s.hub.targetFrame 7 0x20 true).isSome = true) ∧
    Meets (twAsked 0x21 true false) (fun s => (s.hub.targetFrame 7 0x21 true).isSome = true) ∧
    Meets (twAsked 0x22 false false) (fun s => (s.hub.targetFrame 7 0x22 false).any (fun f => !f.pec) = true ∧ s.hub.targetFrame 7 0x20 true = none ∧
      s.hub.targetFrame 7 0x21 true = none ∧ s.hub.targetFrame 7 0x11 true = none) ∧
    Meets (managed Transport.init) (fun s => s.hub.isManaged 1 dg0 = true ∧ s.hub.macOn 1 = true ∧ (s.hub.mac 1).link = true ∧
      s.hub.isManaged 1 { dg0 with dstPort := 1 } = false ∧ (s.hub.xp (9 + 3)).tags = []) ∧
    Meets (managed { Transport.init with source := some (true, 0, 0, 1), tags := [1] }) (fun s => s.hub.slotOf dg0 = none ∧ (s.hub.xp (9 + 3)).tags ≠ []) ∧
    Meets (managed { Transport.init with source := some (false, 1, 2, 1) }) (fun s => s.hub.slotOf dg0 = some 9 ∧ (s.hub.xp 9).source.isSome = true) := by decide +kernel

/-! ### Command packets -/

/-- Mbonik serves packets. -/
abbrev up : Hub := { h0 with mbonik := true }
abbrev pkt (t : Nat) (flags : Byte) (ps : List Half) : Pkt := { t := t, flags := flags, tag := 9, params := ps }
/-- A packet command may be carried out (R340). -/
abbrev Passes (h : Hub) (op : Nat) (p : Pkt) : Prop :=
  h.sysq = [] ∧ h.serves p = true ∧ p.flags >>> 1 = 0 ∧ h.denied op p.t = none ∧ h.wrongPower op p = false
abbrev asked_ (op n : Nat) : Prop := Passes up op (pkt 12 1 (List.replicate n 1))

theorem witness_PacketChecks :
    Meets h0 (fun s => s.hub.hl.stopping = none ∧ ¬ s.hub.serves (pkt 0 0 []) = true) ∧
    Meets up (fun s => s.hub.serves (pkt 12 2 []) = true ∧ ¬ (pkt 12 2 []).flags >>> 1 = 0 ∧ s.hub.serves (pkt 13 0 []) = false ∧
      (0xFF : Byte) ≠ 0 ∧ assigned (0xFF : Byte).toNat = false ∧ assigned (0xB1 : Byte).toNat = true) ∧
    Meets { up with sec := { Sec.init with dbg := 0 } } (fun s => s.hub.denied 0x10 12 = some 1 ∧ s.hub.denied 0x0F 12 = none) ∧
    Meets { up with lc := 2, sec := { Sec.init with dbg := 0 } } (fun s => (s.hub.denied 0x90 12).isSome = true ∧ s.hub.denied 0x90 8 = none) ∧
    Meets { up with pwr := { Power.init with state := 2 } } (fun s => s.hub.denied 0x20 12 = none ∧ s.hub.wrongPower 0x20 (pkt 12 0 [0x0302, 0, 1]) = true) := by decide

theorem witness_PacketEffects :
    (∀ op ∈ ([0x01, 0x04, 0x05, 0x08, 0x14, 0x22, 0x33, 0x62] : List Nat), asked_ op 0) ∧ (∀ op ∈ ([0x03, 0x12, 0x32, 0x70] : List Nat), asked_ op 1) ∧
    (∀ op ∈ ([0x02, 0x13, 0x42, 0x52] : List Nat), asked_ op 2) ∧ asked_ 0x64 3 ∧ asked_ 0x63 6 ∧ asked_ 0x43 9 ∧
    (∀ op ∈ ([0x06, 0x10, 0x20, 0x30, 0x40, 0x50, 0x60, 0x71, 0x80, 0xA6, 0xB0] : List Nat), asked_ op 3) ∧
    Passes up 0x02 (pkt 0 0 [2047, 1]) ∧ Passes up 0x12 (pkt 0 0 [255]) ∧ Passes up 0x13 (pkt 0 0 [255, 1]) ∧ Passes up 0x32 (pkt 0 0 [127]) := by decide

theorem witness_PacketEffects_streams :
    Meets ((up).setStrm 255 (inState .running)) (fun s => (s.hub.strm 255).state ≠ .idle ∧ s.hub.hl.stopping = none) ∧
    Meets { streamOf 1 Stream.init 7 with mbonik := true } (fun s => let h := ((s.hub.begun 0x12 (pkt 0 0 [1])).clearErrors (ctxErr 1)).ctxStart 1
                       h.errors (ctxErr 1) = 0) ∧
    Meets up (fun s => let h := ((s.hub.begun 0x43 (pkt 0 0 [])).clearErrors eqErr).eqPush 31 128 (packRecord { rec0 with pay := 0xFFFFFFFFFFFFFFFF })
                       (h.errors eqErr).testBit 2 = false) ∧
    Meets (up.setFld (ringReg 127 0) 0 1 1) (fun s => s.hub.ringOn 127 = true ∧ s.hub.fld (ringReg 127 8) 1 2 = 0) ∧
    Meets up (fun s => s.hub.ringOn 127 = false ∧ s.hub.tb.armed = false) := by decide

theorem witness_PacketEffects_stop :
    Meets { up with hl := { HostLink.init with stopping := some (pkt 0 0 [255, 1], 0) }, now := 6400000000 } (fun s =>
      s.hub.hl.stopping = some (pkt 0 0 [255, 1], 0) ∧ s.hub.mbonik = true ∧ 0 + 6400000000 ≤ s.hub.now ∧ (s.hub.strm 255).state = .idle) ∧
    Meets up (fun s => let h := ((((s.hub.begun 0x64 (pkt 0 0 [])).clearErrors tbErr).tbWrite 0x008 0x40000000).tbWrite 0x00C 0).tbCommit
                       h.errors tbErr ≠ 0) := by decide

theorem witness_PacketEffects_registers :
    (pkt 0 0 [0x0102, 0x7C, 1]).params.length = 3 ∧ pword (pkt 0 0 [0x0102, 0x7C, 1]) 0 % 256 = 2 ∧
    (∀ e ∈ ([0x06, 0x10, 0x20, 0x30, 0x40, 0x50, 0x60, 0x71, 0x80, 0xA6] : List Nat), (match blockAt e 0 with
      | some x => decide (0x44 ≤ x.2) && (excluded false x.1 0x40).isNone
      | none => false) = true) ∧
    (∀ e ∈ ([0x07, 0x11, 0x21, 0x31, 0x41, 0x51, 0x61, 0x72, 0x81] : List Nat), Passes up e (pkt 0 0 [0, 0, 1, 0, 0]) ∧
      countedOk (pkt 0 0 [0, 0, 1, 0, 0]) = true ∧ (match blockAt e 0 with
        | some x => decide (0x44 ≤ x.2) && (excluded true x.1 (if e = 0x81 then 0x100 else 0x40)).isNone
        | none => false) = true) ∧
    Passes up 0xB1 (pkt 0 0 [0, 0, 1, 0, 0]) ∧ pnum (pkt 0 0 [0, 0, 1, 0, 0]) 0 2 % 4 = 0 ∧ up.blocked 0x11FFFC = false := by decide

/-- The hub in a lifecycle and debug state, with an image and a nonce. -/
abbrev secured (lc dbg : BitVec 2) : Hub :=
  { up with lc := lc, sec := { Sec.init with dbg := dbg, nonce := some 0, image := some (image0 0) } }
/-- Key store with the hashes of R380 written. -/
abbrev keyed (h : Hub) : State := { on h with mem := [⟨0x118000, 1⟩, ⟨0x1180A0, 1⟩, ⟨0x1180C0, 1⟩] }

theorem witness_SecureAndImagePackets :
    (∀ op ∈ ([0x82, 0x90, 0x91, 0x93, 0xA0] : List Nat), Passes up op (pkt 0 0 [])) ∧ Passes up 0x83 (pkt 0 0 [0x50, 71]) ∧
    up.unitState 0x50 71 ≠ 1 ∧ up.unitState 0x50 63 = 1 ∧ Passes up 0x84 (pkt 0 0 [71]) ∧
    (up.setUnit 0x50 71 3).unitState 0x50 71 = 3 ∧ Passes up 0x85 (pkt 0 0 [7]) ∧ up.spareUnits 0x50 ≠ [] := by decide

theorem witness_SecureAndImagePackets_keys :
    Passes (secured 1 0) 0x92 (pkt 0 0 (List.replicate 32 0)) ∧ Passes up 0x94 (pkt 0 0 [3, 0x5AA5]) ∧
    (keyed (secured 1 0)).hashWritten 0x0A0 = true ∧ (secured 1 0).lc ≠ 0 ∧ (secured 1 0).sec.lockout = false ∧ (secured 1 0).sec.nonce = some 0 ∧
    (secured 1 0).sec.image = some (image0 0) ∧ (on up).mayBecome 3 = false ∧ up.sec.pend = none ∧ (keyed up).mayBecome 2 = true ∧
    (keyed (secured 1 0)).mayBecome 3 = true ∧ (keyed (secured 2 1)).mayBecome 3 = true := by decide +kernel

theorem witness_SecureAndImagePackets_images :
    Passes up 0xA1 (pkt 0 0 [0xFFFE, 0x3F, 0]) ∧ pnum (pkt 0 0 [0xFFFE, 0x3F, 0]) 0 2 + 2 = 0x400000 ∧ Passes up 0xA2 (pkt 0 0 [528, 0]) ∧
    Passes up 0xA3 (pkt 0 0 [24574, 0]) ∧ Passes up 0xA4 (pkt 0 0 ([255, 0x7FFF, 0x2000, 24576, 255] ++ List.replicate 32 0)) ∧
    0x2000 + 24576 ≤ 0x8000 ∧ up.taskInUse 255 = false ∧ up.lc.toNat < 2 ∧ ((taskOf [] .ready).setFld (ctxReg 255 0x18) 8 1 1).taskInUse 255 = true ∧ 2 ≤ (secured 2 1).lc.toNat ∧
    Passes up 0xA5 (pkt 0 0 [255]) := by decide +kernel

/-- An unsigned image of 16 bytes in slot 1 of a hub that holds no key. -/
abbrev stagedImage : State :=
  { on up with mem := [⟨0x200400000, 0x42⟩, ⟨0x200400001, 0x4D⟩, ⟨0x200400002, 0x56⟩, ⟨0x200400003, 0x48⟩, ⟨0x20040000C, 16⟩] }
abbrev view0 : ImageView :=
  { wellFormed := true, version := 1, enc := false, revokeLower := false, slot := 3, length := 16, arb := 0, keyHash := 0, sigOk := false,
    gcmOk := false, dbgHash := 0, taskHash := 0 }
abbrev boot0 (ram : Bool) (r : FlashRead) : BootInput :=
  { lockTicks := 0, readyMs := 0, otpBad := false, roundTrip := [], badUnits := [], badRows := [], badCols := [], colRamBad := ram,
    selectors8 := [], selectors1 := [], slot0 := (.noHeader, .noHeader), slot1 := (.noHeader, r) }

abbrev noImage (r : Except Nat (Nat × Bool × ImageView)) : Option Nat :=
  match r with
  | .error e => some e
  | .ok _ => none

theorem witness_image : stagedImage.imageStatus 528 = 0 ∧ (on up).imageStatus 528 ≠ 0 := by decide +kernel

theorem witness_ResetAndBootCommands :
    Meets (h0.setFld 0x10064 16 1 1) (fun s => s.hub.bit 0x10064 16 = true) ∧ Meets (h0.setFld 0x10064 16 1 0) (fun s => s.hub.bit 0x10064 16 = false) ∧
    Meets h0 (fun s => s.hub.hl.ready = false ∧ s.hub.retryAt = none ∧ s.hub.tb.onCrystal = false ∧ (boot0 true .noHeader).colRamBad = true ∧
      (s.findImage (boot0 false (.header view0))).toOption = some (1, true, view0) ∧
      noImage (s.findImage (boot0 false .noHeader)) = some 3 ∧ noImage (s.findImage (boot0 false (.header { view0 with slot := 4 }))) = some 4) ∧
    Meets { h0 with retryAt := some 1 } (fun s => s.hub.retryAt.isSome = true) ∧
    Initiator.path ≠ .col ∧ (0 : Word) ≠ 0x5A5A ∧ Rail.vddPll ≠ .vddhSd := by decide

abbrev tapOf (ir : Byte) (ended : Bool) : Hub := { h0 with tap := { Tap.init with ir := ir, ended := ended } }

theorem witness_TestPortCommands :
    Meets h0 (fun s => s.hub.pwr.state < 2 ∧ s.hub.pwr.entering = false ∧ s.hub.sec.dbg ≠ 0 ∧ s.hub.pwr.state < 3 ∧ s.hub.tap.ir ≠ 0x10 ∧
      s.hub.tap.ir ≠ 0x11 ∧ s.hub.tap.ir ≠ 0x00 ∧ s.hub.tap.ir ≠ 0x01) ∧
    Meets { h0 with pwr := { Power.init with target := 2, entering := true } } (fun s => ¬ (s.hub.pwr.state < 2 ∧
      (s.hub.pwr.entering = false ∨ s.hub.pwr.target ≤ 1))) ∧
    Meets { h0 with sec := { Sec.init with dbg := 0 } } (fun s => ¬ (s.hub.sec.dbg ≠ 0 ∧ s.hub.pwr.state < 3)) ∧
    Meets (tapOf 0x10 false) (fun s => s.hub.tap.ir = 0x10 ∧ (0x01FFFFFC : Word).toNat % 4 = 0 ∧ s.hub.tap.ended = false ∧
      s.hub.stoppedEngine 0x01FFFFFC = false ∧ s.hub.stoppedEngine 0x02000000 = false ∧ regionOf (0x02000000 : Word).toNat = .unmapped) ∧
    Meets (tapOf 0x10 true) (fun s => s.hub.tap.ended = true) ∧ Meets (tapOf 0x11 false) (fun s => s.hub.tap.ir = 0x11) ∧
    Meets (tapOf 0x00 false) (fun s => s.hub.tap.ir = 0x00) ∧ Meets (tapOf 0x01 false) (fun s => s.hub.tap.ir = 0x01) := by decide

/-! ### Worked examples of the spec, one step each -/

/-- 18_commands_and_host_link.md, "one packet on every transport". -/
theorem test_packet_crc : crc16 [0x0100, 0x0500] = 0x0D81 := by decide +kernel

/-- 00_scope.md, "reading a 48-bit counter across an increment". -/
theorem test_counter_read :
    let s := on (h0.setEng 3 { Engine.init with cycles := 0xFFFFFFFF })
    let t := after (.counterLowRead .path (engReg 3 0x10)) s
    let u := { t with hub := t.hub.setEng 3 { Engine.init with cycles := 0x100000000 } }
    t.hub.readData = 0xFFFFFFFF ∧ (after (.rcRead .path (engReg 3 0x14) 4) u).hub.readData = 0 := by decide

/-- 02_layout_table.md, "an engine retired and replaced". -/
theorem test_layout_words :
    let f := ((h0.setUnit 0x50 17 3).setUnit 0x50 66 1).layoutNow
    f.word 0x37 0 0x844 = 0x5555555D ∧ f.word 0x37 0 0x850 = 0x0000AA9A ∧ f.word 0x37 0 0x290 = 0x00070047 := by decide

abbrev slice32 (v : BitVec 32) : Sample := { sample0 with kind := .slice, value := v.signExtend 64 }

/-- 03_streams_and_records.md, "a P16X4 record from end to end". -/
theorem test_p16x4 :
    let l := ([0x01234567, 0xFFFE9000, 0x7FFFC000, 0xC0000000] : List Word).map (fun v => toSlot 2 (slice32 v))
    payload 2 false l = 0xC0007FFFFFFF0123 ∧ l.map (fun x => x.sat) = [false, false, true, false] := by decide

/-- 04_time_base_and_stamping.md, "an armed swap and a record read across it", step 2. -/
theorem test_epoch_rearm :
    let s := on { h0 with mbonik := true, tb := { TimeBase.init with epochS := 1234567890, epochNs := 750000000, epochValid := true } }
    let t := after .epochRearm s
    t.hub.tb.armed = true ∧ t.hub.reg 0x20040 = 0x499602D7 ∧ t.hub.reg 0x20044 = 0 ∧ t.hub.reg 0x20048 = 0x02AE2580 := by decide

abbrev chain (ratio : Nat) : HCfg := { order := 4, ratio := ratio, hb1 := 1, hb2 := 0, hbs := 1, fir := 0x18, phd := 165 }

/-- 04_time_base_and_stamping.md, "a Bank H record to 1/16 ns", and 06_decimation_banks.md, "a ratio change on a running P16X4 stream". -/
theorem test_bank_h_stamps :
    stated (outputInstant [{ k := 5000, acc := 0x0100000000000000, step := 40 * 2 ^ 32, delay := 0x3B8 }] (chain 16) 5000) 0xFFFFFFE4 = 0x00FEECEE6 ∧
    (chain 32).span = 7167 ∧
    stated (outputInstant [{ k := 0, acc := 0x0100000000000000, step := 40 * 2 ^ 32, delay := 0x3B8 }] (chain 32) 7167) 0xFFFFFFE4 = 0x0102_39C6_6 := by decide

abbrev toothAt : Instant := BitVec.ofNat 72 ((1000000 * 4 + 3) * 2 ^ 38)
abbrev crankRun (l : List Mark) : Course :=
  { marks := l ++ [{ t := toothAt, p := 7680 * 65536 }], start := some 0, stop := none, span := some (166600 * 2 ^ 40), dth := 384 * 65536, zeros := [] }

/-- 05_angle_and_distance.md, "a position stamp and a firing tick within one tooth". -/
theorem test_crank_position :
    let at_ (ns : Nat) := ((crankRun []).at_ (cycleOf 1) (BitVec.ofNat 72 (ns * 2 ^ 40))).map (fun x => decide (7800 * 65536 ≤ x.1))
    at_ 1052060 = some false ∧ at_ 1052064 = some true ∧ predict 166680 (some 166800) = 166560 ∧
    ((crankRun [{ t := toothAt + BitVec.ofNat 72 (166680 * 2 ^ 40), p := 8064 * 65536 }]).at_ (cycleOf 1) (toothAt + BitVec.ofNat 72 (30000 * 2 ^ 40))).map
      (fun x => (roundPos (cycleOf 1) x.1, x.2)) = some (7749, false) := by decide

abbrev quarter (q : Nat) : Instant := BitVec.ofNat 72 (q * 2 ^ 38)
abbrev grid0 (n : Nat) (v : Int) : RsIn := { t := quarter (4103175 - 10240 + 10240 * n), v := { v := v, sat := false }, hole := false }

/-- 07_responses_and_resampling.md, "one point on a 0.25 °CA grid". -/
theorem test_grid_point :
    let tv := quarter 4111133
    evaluate 0x28 [grid0 3 1245760, grid0 2 1163840, grid0 1 1081920, grid0 0 1000000] (quarter 4111123) tv =
      .made (quarter 4111123) tv { v := 1145584, sat := false } 3 ∧
    tsOf (stated tv 40) = 0x000FAEC4 ∧ tsfOf (stated tv 40) = 12 := by decide

/-- 10_polling_and_discovery.md, "a time trigger across a wrap". -/
theorem test_time_trigger :
    firstDue 4293918720 2000000 500000 = 4294500000 ∧ (4294500000 + 2000000) % 2 ^ 32 = (1532704 : Nat) := by decide

abbrev knock : Hub :=
  (((h0.setReg (recReg 16 4) 0xC03).setReg (recReg 16 8) 0x01000000).setReg (recReg 16 0x1C) 0x1905).setRcg 16 { Recog.init with
    settling := some { window0 with
      close := some edge0, peak := some (37000000, 0x0A1B2C3D4, 1980, 0x30, 0), samples := 407 } }

/-- 11_event_recognition.md, "a knock window on cylinder 1". -/
theorem test_knock_event :
    ((knock.settleWin 16 false).acted.eq_ 2).items.map (fun i => packRecord i.rcd) = [0x0A1B2C3D07BC30484190107F02349340] := by decide

abbrev ms16 (ms10 : Nat) : BitVec 36 := BitVec.ofNat 36 (ms10 * 1600000)
/-- Recognisers 40 and 41 are SLOPE over 4 samples, 42 the COMBINE of both; input 40 rose at 1000.0 ms and fell since. -/
abbrev kerb : Hub :=
  let slope (h : Hub) (r : Nat) : Hub :=
    (((h.setFld (recReg r 0) 0 1 1).setReg (recReg r 4) 0x00030002).setReg (recReg r 8) 0x001E8480).setReg (recReg r 0xC) 0x000F4240
  ((((((slope (slope h0 40) 41).setFld (recReg 42 0) 0 1 1).setReg (recReg 42 4) 5).setReg (recReg 42 0x14) 0xA9A8).setReg (recReg 42 0x18) 0x000A3A98).setReg
    (recReg 42 0x1C) 0x00050C03).setRcg 40 { Recog.init with rise := some (ms16 10000) }

/-- 11_event_recognition.md, "a kerb strike on the left side", step 4. -/
theorem test_kerb_strike :
    let s := on (kerb.setRcg 41 { Recog.init with past := [1300000, 400000, 120000, 100000] })
    let t := after (.recSample 41 { ts := tsOf (ms16 11170), pos := 0xFFFF, sid := 7, tsf := 0, flg := 0, pay := 2200000 }) s
    (t.hub.rcg 41).out = true ∧ (t.hub.rcg 42).out = true ∧ t.hub.bit 0x7F004 10 = true ∧
    (t.hub.eq_ 1).items.map (fun i => (i.rcd.pay, i.rcd.sid, i.rcd.ts)) = [(0x50C02A0100002903, 7, tsOf (ms16 11170))] := by decide

abbrev eqItem (pri n : Nat) (ripe : Bool) : EqItem := { rcd := { rec0 with pay := BitVec.ofNat 64 (pri * 2 ^ 52 + n) }, at_ := n, ripe := ripe }
abbrev four : List EqItem := [eqItem 3 100 true, eqItem 9 200 true, eqItem 3 300 true, eqItem 12 1000 false]

/-- 12_queues_and_rings.md, "settling, priority and underrun on EQ2". -/
theorem test_queue_pops :
    let q (l : List EqItem) := h0.setEq 2 { EventQueue.init with items := l }
    ((q four).pop 2).1.pay = (eqItem 9 200 true).rcd.pay ∧ ((q [eqItem 3 100 true, eqItem 3 300 true, eqItem 12 1000 false]).pop 2).1.pay = (eqItem 3 100 true).rcd.pay ∧
    ((q [eqItem 3 300 true, eqItem 12 1000 true]).pop 2).1.pay = (eqItem 12 1000 true).rcd.pay ∧
    (((q [eqItem 3 300 true]).pop 2).2.pop 2).1.pay = (eqItem 3 300 true).rcd.pay ∧ (((q [eqItem 3 300 true]).pop 2).2.pop 2).2.bit 0xD0220 10 = true := by decide

/-- 12_queues_and_rings.md, "a frozen capture on ring 5", steps 3 and 4. -/
theorem test_ring_freeze :
    let h := (((h0.setFld (ringReg 5 0) 0 1 1).setFld (ringReg 5 4) 0 16 0x120).setFld (ringReg 5 0xC) 24 1 1).setRing 5
      { Ring.init with state := 2, wr := 1050, rd := 850, trig := 1000, trigN := 150, pre := 100, post := 50 }
    let g := h.wrote 5 200
    (g.ring 5).state = 3 ∧ (g.ring 5).capEnd = 1051 ∧ (g.ring 5).capStart = 900 ∧ (g.ring 5).rd = 900 ∧ (g.ring 5).fill = 151 ∧
      g.fld (ringReg 5 0x28) 16 16 = 50 ∧ g.bit 0xEF000 5 = true := by decide

abbrev scaling (l : List Half) : State := on (h0.setEng 71 { Engine.init with st := .task, stack := l })

/-- 14_icevo_instruction_set.md, "a scaling task, byte by byte": WIDE MUL and WIDE SARI 8. -/
theorem test_scaling :
    ((after (.mul 71 pw) (scaling [0, 0x0C35, 1, 0x86A0])).hub.eng 71).stack = [0x12A0, 0x5F20] ∧
    ((after (.mul 71 pw) (scaling [0, 0x0C35, 1, 0x86A0])).hub.eng 71).cycles = 3 ∧
    ((after (.sari 71 pw 8) (scaling [0x12A0, 0x5F20])).hub.eng 71).stack = [0x0012, 0xA05F] ∧
    ((after (.sari 71 pw 8) (scaling [0x12A0, 0x5F20])).hub.eng 71).sr.toNat % 16 = 0 := by decide

/-- 14_icevo_instruction_set.md, "an interrupted REP CPYF", without the interrupt. -/
theorem test_rep_cpyf :
    let x : Engine := { Engine.init with st := .task, rc := 12, b := [(4, 0x400), (5, 6)], win := [(2, 0x100)] }
    let t := after (.cpyf 71 pr 2) (on (h0.setEng 71 x))
    (t.hub.eng 71).cycles = 38 ∧ (t.hub.eng 71).rc = 0 ∧ (t.hub.eng 71).base 4 = 0x40C ∧ (t.hub.eng 71).base 5 = 18 ∧
    t.hub.outq.map (fun q => match q.2 with
      | .write a l => (a, (l.filter (fun w => w.isSome)).length)
      | .read _ _ _ => (0, 0)) = [(0x01000000, 2), (0x01000010, 8), (0x01000020, 2)] := by decide

abbrev minute (n : Nat) : Nat := n * 60 * 64000000000
abbrev raised (low : Half) (cycle : Nat) : State :=
  on { (h0.setFld 0x100100 0 1 1) with
    mbonik := true, now := minute cycle, age := { Ageing.init with
      vid := 17, plan := 17, fresh := true, low := (List.range 32).map (fun c => (c, low)), slack := (List.range 32).map (fun c => (c, low)),
      vmin := (List.range 16).map (fun b => (b, 500)), steps := [{ volt := true, vid := 16, before := 24, gain := some 6 }] } }

/-- 16_ageing_and_margins.md, "a voltage step and a refused undo", steps 4 and 5, in whole ps. -/
theorem test_planner_undo :
    (after (.plannerCycle []) (raised 39 11)).hub.age.plan = 17 ∧ (after (.plannerCycle []) (raised 41 25)).hub.age.plan = 16 ∧
    (after (.plannerCycle []) (raised 41 25)).hub.age.post = some 2 := by decide +kernel

/-- 17_power_states.md, R308 and R313: entry to MEADOW waits for a stream in DRAINING and for nothing else. -/
theorem test_meadow_waits :
    let h : Hub := { (powered { Power.init with target := 1, since := some 0 }) with now := 255 * 64000000 }
    (after .powerEntry (on (h.setStrm 255 (inState .draining)))).hub.pwr.state = 0 ∧
    (after .powerEntry (on (h.setStrm 255 (inState .running)))).hub.pwr.state = 1 := by decide +kernel

/-- 22_startup_and_reset.md, R402: the selector record without the larger SEQ is written, with a SEQ one larger. -/
theorem test_selector_record : nextSelector [some (7, 0), some (8, 1)] = (0, 9) ∧ nextSelector [some (9, 0), some (8, 1)] = (1, 10) ∧
    nextSelector [none, some (8, 1)] = (0, 9) := by decide

/-- 19_command_reference.md, "a write that stops at a locked field". -/
theorem test_ctx_write :
    let s := on { streamOf 42 (inState .running) with mbonik := true }
    let t := after (.ctxWrite { t := 0, flags := 0, tag := 7, params := [0, 0x0A94, 2, 0xFFE4, 0xFFFF, 0x0105, 0] }) s
    (t.hub.xp 0).out.map (fun w => w.dropLast) = [[0x1107, 0x0702, 5, 2]] ∧ t.hub.seen (ctxReg 42 0x14) = 0xFFFFFFE4 ∧ t.hub.reg (ctxReg 42 0x14) = 0 ∧
      t.hub.taskId 42 = 0 := by decide +kernel

/-- 20_ethernet_and_network_time.md, "a one-step Sync across a wrap". -/
theorem test_one_step_sync :
    let h : Hub := { ((h0.setFld 0xF7000 1 2 2).setReg (macReg 1 0x64) 24) with
      tb := { TimeBase.init with epochS := 1234567890, epochNs := 750000000, epochValid := true } }
    h.sentSync 1 0xFFFFFFDC 5 = { seconds := 0x499602D7, ns := 0x02AE2591, corr := 0x1000, trailer := 0x7B53, filled := true } := by decide

/-- 17_power_states.md, "a parked car with a wheel turned", step 1: the target is HOLLOW, and BLOCK is 3. -/
theorem test_parked_car :
    let x := inState .running
    let h0 := ((((((h0.setFld 0x10100 0 16 0x1388).setReg 0x30180 0x03E80401).setReg 0x10108 0x00010013).setFld (ctxReg 9 8) 0 4 2).setFld (ctxReg 9 8) 8 8 5).setFld
      (txReg 5 4) 0 5 3).setStrm 9 x
    let h := (((h0.setFld (ctxReg 9 0x1C) 0 8 0x82).setFld (ringReg 2 0) 0 1 1).setFld (recReg 3 0) 0 1 1).setFld (recReg 4 0) 0 1 1
    h.governed = (3, 3) := by decide +kernel

/-! ### WellFormed: an ill-formed term for each check -/

abbrev c0 : CByte := { d := 0, cond := 0 }
abbrev l0 : PLogic := { d := 0, op := 0, x := 0, y := 0 }
abbrev tf0 : TwFrame := { start := 0, rstart := 0, result := .nack, bytes := [] }
abbrev site (n : Nat) (w : ParityWord) : ParitySite := { reg := 0, ty := 0, inst := n, word := w }
abbrev refused (l : List Instr) : Bool := l.all (fun c => !c.wf)

theorem test_ill_formed_a : refused [
    .registerWrite .path 0 5 0, .registerWrite .path 0 5 0, .registerWrite (.eng 72) 0 4 0, .registerWrite .path 0 0 0,
    .registerWrite .path 1 4 0, .registerWrite .path 0 5 0, .rcRead .path 0 5, .rcRead .path 0 5, .rcRead (.eng 72) 0 4,
    .rcRead .path 0 0, .rcRead .path 1 4, .rcRead .path 0 5, .counterLowRead (.eng 72) 0, .fabricParityFail (site 0 (.record 0)),
    .fabricParityFail (site 73 .fetch), .fabricParityFail (site 73 .load), .readReplyParityFail (.eng 72) ⟨0, 4⟩ false, .readReplyParityFail .path ⟨0, 0⟩ false,
    .readReplyParityFail .path ⟨0, 17⟩ false, .fabricParityFail (site 32 (.stage 0)),
    .layoutTableWrite (.eng 72) 0 0, .recordForm 0 sample0, .recordForm 256 sample0, .dispatch 0, .dispatch 256, .recordStore 0,
    .recordStore 256, .streamDrainComplete 0, .streamDrainComplete 256, .ctxStart 0, .ctxStart 256, .ctxStop 0, .ctxStop 256,
    .ctxCommit 0, .ctxCommit 256, .trgPinEdge 8 false 0, .angPinEdge 8 false 0, .distStall 4, .dstEnable 4 false, .dstZero 4,
    .asePosWrite 1024 0, .aseActionWrite 1024 0, .aseFire 1024] = true := by decide

theorem test_ill_formed_b : refused [
    .toutPulseStart 8, .toutPulseEnd 8, .bankHOutput 48 [], .bankMOutput 64, .hchCommit 48, .mchCommit 64, .gridPoint 32, .rsCommit 32,
    .romWrite (.eng 72) 0 0, .spEnable 16 false, .spCommit 16, .spAbort 16, .portStartTransaction (.sp 16),
    .portStartTransaction (.tw 8), .spFrameEnd 16 [], .spRetryWaitEnd 16, .dqsTimeout 2, .transactionComplete (.sp 16),
    .transactionComplete (.tw 8), .twCtrlEnable 8 false, .tgtEnable 8 false, .twCommit 8, .twAbort 8, .busclr 8 false,
    .autoBusClear 8 false, .twFrameEnd 8 tf0, .arbitrationLost 8 .early, .twSclTimeout 8, .busFree 8, .targetAddressMatch 8 0 false none,
    .cmdPut 8 [], .rspGet 8 false, .hubStatus 8, .eqPeek 8, .twLtolSet 8 [], .targetTimeout 8, .cmdPutTimeout 8, .txEnable 128 false,
    .txKick 128, .timeTriggerDue 128] = true := by decide

theorem test_ill_formed_c : refused [
    .bankMSpacingEnd 128, .probeEnable 64 false, .probeRun 64 0 0, .probeRun 0 9 0, .recSample 128 rec0, .winOpen 128 edge0,
    .winClose 128 edge0, .settleTimeout 128, .combineWinExpire 128 0, .combineWinExpire 0 4, .recEnable 128 false, .recCommit 128,
    .eqInsert 32 rec0, .eqPush 32 0 0, .eqPush 0 7 0, .eqHeadPop 32 false, .flush 32, .ringEnable 128, .ringDisable 128, .release 128,
    .rdIdxWrite 128 0, .datagramForm 128 [], .flushMsExpire 128, .taskRunStart 72, .interruptEntry 72, .budgetExceeded 73,
    .readDataArrival 73 0 false, .engRun 72, .engReset 72, .engHalt 72, .engResume 72, .engSwi 72, .engService .path 72 false,
    .engService (.eng 72) 0 false, .codeRamWrite (.eng 72) 0 0, .dwellStart 4, .dwellEnd 4, .shadowMismatch 4 0, .vote 4 .live,
    .voteTimeout 4] = true := by decide

theorem test_ill_formed_d : refused [
    .plannerCycle [{ ty := 0x10, phys := 52 }], .plannerCycle [{ ty := 0x11, phys := 68 }], .plannerCycle [{ ty := 0x12, phys := 34 }],
    .plannerCycle [{ ty := 0x42, phys := 16 }], .plannerCycle [{ ty := 0x50, phys := 72 }], .plannerCycle [{ ty := 0x51, phys := 0 }],
    .guardStep 32, .monitorSample [] [], .vminProbe 16 0, .wakePin 4 false, .packetReceive 13 [], .replyTaken 13, .mgmtDatagram 2 dg0,
    .udpSlotExpire 4, .ping (pkt 13 0 []), .tableRead (pkt 13 0 []), .reset (pkt 13 0 []), .resetCause (pkt 13 0 []),
    .irqStatus (pkt 13 0 []), .sysRead (pkt 13 0 []), .sysWrite (pkt 13 0 []), .deviceId (pkt 13 0 []), .ctxRead (pkt 13 0 []),
    .ctxWrite (pkt 13 0 []), .streamStart (pkt 13 0 []), .streamStop (pkt 13 0 []), .streamStates (pkt 13 0 []), .bankRead (pkt 13 0 []),
    .bankWrite (pkt 13 0 []), .syncCommand (pkt 13 0 []), .schRead (pkt 13 0 []), .schWrite (pkt 13 0 []), .kick (pkt 13 0 []),
    .probeStates (pkt 13 0 []), .recRead (pkt 13 0 []), .recWrite (pkt 13 0 []), .eqPop (pkt 13 0 []), .eqPost (pkt 13 0 []),
    .ringRead (pkt 13 0 []), .ringWrite (pkt 13 0 [])] = true := by decide

theorem test_ill_formed_e : refused [
    .ringTake (pkt 13 0 []), .tnRead (pkt 13 0 []), .tnWrite (pkt 13 0 []), .timeNow (pkt 13 0 []), .epochSet (pkt 13 0 []),
    .tincSet (pkt 13 0 []), .ltolSet (pkt 13 0 []), .pwrRead (pkt 13 0 []), .pwrWrite (pkt 13 0 []), .hltRead (pkt 13 0 []),
    .hltWrite (pkt 13 0 []), .ageReport (pkt 13 0 []), .retire (pkt 13 0 []), .retest (pkt 13 0 []) false, .selftest (pkt 13 0 []) [],
    .selftest (pkt 0 0 []) [{ ty := 0x10, phys := 52 }], .selftest (pkt 0 0 []) [{ ty := 0x11, phys := 68 }],
    .selftest (pkt 0 0 []) [{ ty := 0x12, phys := 34 }], .selftest (pkt 0 0 []) [{ ty := 0x42, phys := 16 }],
    .selftest (pkt 0 0 []) [{ ty := 0x50, phys := 72 }], .selftest (pkt 0 0 []) [{ ty := 0x51, phys := 0 }], .secStatus (pkt 13 0 []),
    .dbgChallenge (pkt 13 0 []), .dbgResponse (pkt 13 0 []), .dbgClose (pkt 13 0 []), .lifecycleSet (pkt 13 0 []) false,
    .fwInfo (pkt 13 0 []), .fwStage (pkt 13 0 []) false, .fwCommit (pkt 13 0 []) false, .taskStage (pkt 13 0 []),
    .taskInstall (pkt 13 0 []), .taskRemove (pkt 13 0 []), .engRead (pkt 13 0 []), .memRead (pkt 13 0 []), .memWrite (pkt 13 0 []),
    .linkUp 2 good0, .linkDown 2, .frameReceive 2 (frameOf 64 .other), .ptpSyncReceive 2 (sync0 0), .ptpMasterTx 2 false] = true := by decide

theorem test_ill_formed_f : refused [
    .oneStepSyncTx 2 0 0, .lpiEnter 2, .keyStoreWrite (.eng 72) 0 0, .wdtKick (.eng 72) 0, .eqItemEligible 32, .twRetryWaitEnd 8,
    .delayRequestTx 2, .frameTransmit 2 0 0, .pauseExpire 2, .nop 73 p0, .dup 73 p0, .drop 73 p0, .swap 73 p0, .over 73 p0, .rot 73 p0,
    .nip 73 p0, .pick 73 p0 0, .lit8 73 p0 0, .lit16 73 p0 0, .lit32 73 p0 0, .depth 73 p0, .add 73 p0, .sub 73 p0, .adc 73 p0,
    .sbc 73 p0, .neg 73 p0, .adds 73 p0, .subs 73 p0, .abs 73 p0, .min 73 p0, .max 73 p0, .minu 73 p0, .maxu 73 p0, .and 73 p0,
    .or 73 p0, .xor 73 p0, .not 73 p0, .shl 73 p0, .shr 73 p0, .sar 73 p0] = true := by decide

theorem test_ill_formed_g : refused [
    .shli 73 p0 0, .shri 73 p0 0, .sari 73 p0 0, .mul 73 p0, .mulu 73 p0, .div 73 p0, .divu 73 p0, .divl 73 p0, .divlu 73 p0,
    .addi 73 p0 0, .sext 73 p0, .zext 73 p0, .cmp 73 p0 c0, .tst 73 p0 0, .plog 73 p0 l0, .pset 73 p0 0 false, .pushp 73 p0 0,
    .popp 73 p0 0, .pflag 73 p0 c0, .ld 73 p0 (mb 0 false 0) (.short 0), .st 73 p0 (mb 0 false 0) (.short 0),
    .lea 73 p0 (mb 0 false 0) 0, .addb 73 p0 0 0, .mfr 73 p0 0, .mtr 73 p0 0, .br 73 p0 (.short 0), .brl 73 p0 0, .bra 73 p0 0,
    .brla 73 p0 0, .bri 73 p0, .ret 73 p0, .loop 73 p0 0, .reti 73 p0, .tdone 73 p0 0, .trap 73 p0 0, .brk 73 p0,
    .post 73 p0 0 (mb 0 false 0) 0, .fetch 73 p0 0 (mb 0 false 0) 0, .ldr 73 p0 0 (mb 0 false 0) 0, .stc 73 p0 0 (mb 0 false 0) 0 0] = true := by decide

theorem test_ill_formed_h : refused [
    .collect 73 p0 0 0, .cpyf 73 p0 0, .movs 73 p0, .fills 73 p0, .cmps 73 p0 0, .codewr 73 p0, .flushi 73 p0, .dmac 73 p0 0 0,
    .clracc 73 p0, .rdacc 73 p0, .rdaccs 73 p0, .undefinedOpcode 73 0] = true := by decide

theorem test_ill_formed_opcode : refused [.unknownOpcode 0xFF (pkt 13 0 [])] = true := by decide

theorem test_packet_words : (pkt 0 0 (List.replicate 251 0)).wf = false ∧ (pkt 12 0 (List.replicate 250 0)).wf = true := by decide +kernel

theorem test_well_formed :
    ([.registerWrite (.eng 71) 3 1 0, .rcRead .col 0 4, .ctxStart 255, .aseFire 1023, .portStartTransaction (.tw 7), .eqPush 31 128 0,
      .combineWinExpire 127 3, .nop 72 p0, .fabricParityFail (site 72 .fetch), .plannerCycle [{ ty := 0x11, phys := 67 }]] : List Instr).all
      Instr.wf = true := by decide

end Sys2Proof.Tests
end

section
/-! SUPPORT. Accesses by fabric: registers after a field update, what a read, a parity failure and a loss leave unchanged, one equation for each
kind of address, and the statement FabricCommands assembled from them. -/

namespace Sys2Proof.Machine

/-! ### Fields of registers -/

theorem testBit_bits (w : Word) (lsb width i : Nat) : (bits w lsb width).testBit i = (decide (i < width) && w.getLsbD (lsb + i)) := by
  simp [bits, Nat.testBit_mod_two_pow, Nat.testBit_shiftRight, BitVec.getLsbD]

/-- A field reads what was put in it, as far as it is wide. -/
theorem bits_setBits_same (w : Word) (lsb width v : Nat) (hw : lsb + width ≤ 32) :
    bits (setBits w lsb width v) lsb width = v % 2 ^ width := by
  refine Nat.eq_of_testBit_eq fun i => ?_
  rw [testBit_bits, Nat.testBit_mod_two_pow]
  by_cases hi : i < width
  · have h32 : lsb + i < 32 := by omega
    simp only [setBits, BitVec.getLsbD_or, BitVec.getLsbD_and, BitVec.getLsbD_not, BitVec.getLsbD_ofNat, Nat.testBit_shiftLeft,
      Nat.testBit_two_pow_sub_one]
    simp [hi, h32]
  · simp [hi]

/-- All 32 bits of a word. -/
theorem bits_all (w : Word) : bits w 0 32 = w.toNat := Nat.mod_eq_of_lt w.isLt

theorem fld_setFld_same (h : Hub) (a lsb width v : Nat) (hw : lsb + width ≤ 32) :
    (h.setFld a lsb width v).fld a lsb width = v % 2 ^ width := by
  rw [Hub.fld, Hub.setFld, reg_setReg_same, bits_setBits_same _ _ _ _ hw]

theorem satAdd_one (w v : Nat) : satAdd w v 1 = min (2 ^ w - 1) (v + 1) := by
  have := Nat.two_pow_pos w
  unfold satAdd
  split <;> omega

/-- A counter raised by 1 saturates at its highest value. -/
theorem bump_one (h : Hub) (a lsb width : Nat) :
    h.bump a lsb width 1 = h.setFld a lsb width (min (2 ^ width - 1) (h.fld a lsb width + 1)) := by
  rw [Hub.bump, satAdd_one]

theorem reg_bump_other (h : Hub) (a b lsb width n : Nat) (hb : b ≠ a) : (h.bump a lsb width n).reg b = h.reg b :=
  reg_setReg_other _ _ _ _ hb

theorem fld_bump_same (h : Hub) (a lsb width : Nat) (hw : lsb + width ≤ 32) :
    (h.bump a lsb width 1).fld a lsb width = min (2 ^ width - 1) (h.fld a lsb width + 1) := by
  have := Nat.two_pow_pos width
  rw [bump_one, fld_setFld_same _ _ _ _ _ hw, Nat.mod_eq_of_lt (by omega)]

/-- The bit of FAB_ERR that an access sets reads 1 (R22). -/
theorem bit_fabErr (h : Hub) (k a : Nat) (hk : k < 32) : (h.fabErr k a).bit 0x10048 k = true := by
  have hb := fld_setFld_same (if h.reg 0x10048 = 0 then h.setReg 0x1004C (BitVec.ofNat 32 a) else h) 0x10048 k 1 1 (by omega)
  simpa [Hub.fld, bits, Nat.testBit, Hub.fabErr, Hub.setBit, Hub.bit, Nat.and_comm, Nat.and_one_is_mod] using hb

/-- A write of a register whose fields are all RW and accept every value sets each of them (R7). -/
theorem putReg_rw (h : Hub) (e : ErrReg) (which a : Nat) (locked : Bool) (v : Word) (hf : ∀ f ∈ fieldsAt a, f.acc = .rw ∧ f.chk = .any) :
    h.putReg e which a locked anyField v = (fieldsAt a).foldl (fun g f => g.setFld a f.lsb f.width (bits v f.lsb f.width)) h := by
  have fold : ∀ (l : List Fld) (r : Wrote), (∀ f ∈ l, f.acc = .rw ∧ f.chk = .any) → l.foldl (writeField a locked anyField v) r =
      { r with hub := l.foldl (fun g f => g.setFld a f.lsb f.width (bits v f.lsb f.width)) r.hub } := by
    intro l
    induction l with
    | nil => intro r _; rfl
    | cons f l ih =>
      intro r hl
      obtain ⟨hacc, hchk⟩ := hl f List.mem_cons_self
      have one : writeField a locked anyField v r f = { r with hub := r.hub.setFld a f.lsb f.width (bits v f.lsb f.width) } := by
        simp [writeField, hacc, hchk, Chk.ok, anyField]
      rw [List.foldl_cons, one, ih _ fun g hg => hl g (List.mem_cons_of_mem _ hg), List.foldl_cons]
  simp [Hub.putReg, Hub.writeFields, fold _ _ hf]

/-! ### What forms no SID 0 record -/

theorem fabErr_sysq (h : Hub) (k a : Nat) : (h.fabErr k a).sysq = h.sysq := by
  unfold Hub.fabErr
  split <;> rfl

theorem refuse_sysq (h : Hub) (a : Nat) : (h.refuse a).sysq = h.sysq := by
  unfold Hub.refuse
  split <;> rfl

/-- An insertion changes the queues and registers alone. -/
theorem insert_changes (h : Hub) (q : Nat) (r : Record) : ∃ es rs, h.insert q r = { h with eqs := es, regs := rs } := by
  unfold Hub.insert
  dsimp only
  split
  · exact ⟨_, _, rfl⟩
  · exact ⟨_, h.regs, rfl⟩

/-- A HEALTH event changes the queues, registers and the governor's held events alone. -/
theorem health_changes (h : Hub) (ty inst code value : Nat) :
    ∃ es rs p, h.health ty inst code value = { h with eqs := es, regs := rs, pwr := p } := by
  unfold Hub.health
  dsimp only
  split
  · obtain ⟨es, rs, hi⟩ := insert_changes h (h.fld 0x10040 8 5) _
    exact ⟨es, rs, h.pwr, hi⟩
  · split
    · exact ⟨h.eqs, h.regs, _, rfl⟩
    · exact ⟨h.eqs, _, h.pwr, rfl⟩

/-- A HEALTH event leaves every register but a queue's loss count and the count of events dropped in HOLLOW and BASIN (R221, R313). -/
theorem reg_health (h : Hub) (ty inst code value a : Nat) (ha : a < 0xD0000) (hd : a ≠ 0x1011C) :
    (h.health ty inst code value).reg a = h.reg a := by
  unfold Hub.health
  dsimp only
  split
  · unfold Hub.postHealth Hub.insert
    dsimp only
    split
    · exact reg_bump_other _ _ _ _ _ _ (by omega)
    · rfl
  · split
    · rfl
    · exact reg_bump_other _ _ _ _ _ _ hd

/-- A word that failed parity is counted and reported with the count (R29). -/
theorem parityError_eq (h : Hub) (reg ty inst : Nat) : h.parityError reg ty inst =
    (h.setFld reg 0 16 (min 65535 (h.fld reg 0 16 + 1))).health ty inst 0x10 (min 65535 (h.fld reg 0 16 + 1)) := by
  unfold Hub.parityError
  dsimp only
  rw [fld_bump_same _ _ _ _ (by decide), bump_one]
  rfl

/-- A parity failure changes the queues, registers and the governor's held events alone. -/
theorem parityError_changes (h : Hub) (reg ty inst : Nat) :
    ∃ es rs p, h.parityError reg ty inst = { h with eqs := es, regs := rs, pwr := p } := by
  obtain ⟨es, rs, p, hh⟩ := health_changes (h.bump reg 0 16 1) ty inst 0x10 ((h.bump reg 0 16 1).fld reg 0 16)
  exact ⟨es, rs, p, hh⟩

theorem parityError_sysq (h : Hub) (reg ty inst : Nat) : (h.parityError reg ty inst).sysq = h.sysq := by
  obtain ⟨es, rs, p, hh⟩ := parityError_changes h reg ty inst
  rw [hh]

theorem parityError_flight (h : Hub) (reg ty inst : Nat) : (h.parityError reg ty inst).flight = h.flight := by
  obtain ⟨es, rs, p, hh⟩ := parityError_changes h reg ty inst
  rw [hh]

theorem parityError_strm (h : Hub) (reg ty inst sid : Nat) : (h.parityError reg ty inst).strm sid = h.strm sid := by
  obtain ⟨es, rs, p, hh⟩ := parityError_changes h reg ty inst
  rw [hh]
  rfl

theorem reg_parityError_other (h : Hub) (reg ty inst a : Nat) (ha : a < 0xD0000) (hd : a ≠ 0x1011C) (hr : a ≠ reg) :
    (h.parityError reg ty inst).reg a = h.reg a :=
  (reg_health _ _ _ _ _ _ ha hd).trans (reg_bump_other _ _ _ _ _ _ hr)

theorem popBadStage_sysq (h : Hub) (q : Nat) : (h.popBadStage q).sysq = h.sysq := by
  unfold Hub.popBadStage
  dsimp only
  split
  · rfl
  · exact parityError_sysq _ _ _ _

theorem dropBadly_sysq (n q : Nat) (h : Hub) : (h.dropBadly n q).sysq = h.sysq := by
  induction n generalizing h with
  | zero => rfl
  | succ n ih =>
    unfold Hub.dropBadly
    split
    · rfl
    · split
      · rw [ih, popBadStage_sysq]
      · rfl

theorem headPop_sysq (h : Hub) (q : Nat) : (h.headPop q false).sysq = h.sysq := by
  have hpop : (h.pop q).2.sysq = h.sysq := by
    unfold Hub.pop
    dsimp only
    split <;> exact dropBadly_sysq _ _ _
  exact hpop

@[simp] theorem copyLow_sysq (h : Hub) (a : Nat) (v : BitVec 128) : (h.copyLow a v).sysq = h.sysq := rfl

theorem tbRead_sysq (h : Hub) (off : Nat) : (h.tbRead off).2.sysq = h.sysq := by
  unfold Hub.tbRead
  split
  case h_10 => split <;> rfl
  all_goals rfl

theorem ctxRead_sysq (h : Hub) (sid off : Nat) : (h.ctxRead sid off).2.sysq = h.sysq := by
  unfold Hub.ctxRead
  split <;> rfl

theorem engRead_sysq (h : Hub) (e off : Nat) : (h.engRead e off).2.sysq = h.sysq := by
  unfold Hub.engRead
  dsimp only
  split <;> rfl

theorem secRead_sysq (s : State) (off : Nat) : (s.secRead off).2.sysq = s.hub.sysq := by
  unfold State.secRead
  dsimp only
  split <;> dsimp only [copyLow_sysq]

/-- Of the blocks, the time base, the contexts, the queues, security and the engines change at a read; none forms a SID 0 record. -/
theorem regGet_sysq (s : State) (l : Loc) (a : Nat) : (s.regGet l a).2.hub.sysq = s.hub.sysq := by
  unfold State.regGet
  split
  case h_3 => exact tbRead_sysq _ _
  case h_15 => exact ctxRead_sysq _ _ _
  case h_23 =>
    split
    · exact headPop_sysq _ _
    · rfl
  case h_30 => exact secRead_sysq _ _
  case h_32 => exact engRead_sysq _ _ _
  all_goals rfl

theorem regRead_sysq (s : State) (l : Loc) (a : Nat) (m : Word) : (s.regRead l a m).2.hub.sysq = s.hub.sysq := by
  unfold State.regRead
  dsimp only
  split <;> exact regGet_sysq _ _ _

theorem fabricRead_sysq (s : State) (b : Initiator) (a n : Nat) : (s.fabricRead b a n).2.hub.sysq = s.hub.sysq := by
  unfold State.fabricRead
  split
  · exact refuse_sysq _ _
  · split
    · exact regRead_sysq _ _ _ _
    · rfl
    · rfl
    · rfl
    · exact fabErr_sysq _ _ _

theorem readWords_sysq (b : Initiator) : ∀ (k a : Nat) (s : State), (State.readWords b a k s).2.hub.sysq = s.hub.sysq
  | 0, _, _ => rfl
  | 1, _, _ => fabricRead_sysq _ _ _ _
  | k + 2, a, _ => (readWords_sysq b k (a + 4) _).trans (fabricRead_sysq _ _ _ _)

/-! ### Any address -/

/-- No region is blocked to the Col pair, nor to anyone outside the key store (R390). -/
theorem not_refused {h : Hub} {b : Initiator} {a : Nat} (hf : h.blocked a = false ∨ b = .col) : (h.blocked a && b != .col) = false := by
  rcases hf with hf | rfl
  · simp [hf]
  · simp

theorem blocked_outside (h : Hub) {a : Nat} (ha : a < 0x118000 ∨ 0x120000 ≤ a) : h.blocked a = false := by
  unfold Hub.blocked keyBase
  exact decide_eq_false (by omega)

theorem regionOf_sram {a : Nat} (h0 : 0x01000000 ≤ a) (h1 : a < 0x02000000) : regionOf a = .sram :=
  if_pos ⟨h0, h1⟩

theorem locate_engReg {e off : Nat} (he : e < 72) (ho : off < 0x100) : locate (engReg e off) = some ⟨.eng, e, off⟩ := by
  have hp : engReg e off / 0x10000 = 0x12 := by unfold engReg; omega
  have hm : engReg e off % 0x10000 = 0x100 * e + off := by unfold engReg; omega
  simp only [locate, hp, hm]
  rw [if_pos (by omega)]
  congr 2 <;> omega

theorem regionOf_engReg {e off : Nat} (he : e < 72) (ho : off < 0x100) (h4 : off % 4 = 0) : regionOf (engReg e off) = .regs ⟨.eng, e, off⟩ := by
  have ha : engReg e off / 4 * 4 = engReg e off := by unfold engReg; omega
  unfold regionOf
  rw [if_neg, if_neg, if_neg, ha, locate_engReg he ho]
  all_goals (simp only [engReg, sramBase, commonsBase, windowBase]; omega)

theorem fabricWrite_refused {s : State} {b : Initiator} {a : Nat} (hb : s.hub.blocked a = true) (hc : b ≠ .col) (n v : Nat) :
    s.fabricWrite b a n v = s.withHub (s.hub.refuse a) := by
  simp [State.fabricWrite, hb, hc, State.mapHub]

theorem fabricWrite_unmapped {s : State} {b : Initiator} {a : Nat} (hf : s.hub.blocked a = false ∨ b = .col) (hr : regionOf a = .unmapped)
    (n v : Nat) : s.fabricWrite b a n v = s.withHub (s.hub.fabErr 0 a) := by
  simp [State.fabricWrite, not_refused hf, hr, State.mapHub]

theorem fabricWrite_sram {s : State} {b : Initiator} {a : Nat} (h0 : 0x01000000 ≤ a) (h1 : a < 0x02000000) (n v : Nat) :
    s.fabricWrite b a n v = s.store a (bytesOf n v) := by
  simp [State.fabricWrite, blocked_outside s.hub (.inr (by omega) : a < 0x118000 ∨ 0x120000 ≤ a), regionOf_sram h0 h1]

/-- A write narrower than 32 bits to a register block sets WIDTH, and what the block itself flags (R31, R36, R225). -/
theorem fabricWrite_narrow {s : State} {b : Initiator} {a n : Nat} {l : Loc} (hf : s.hub.blocked a = false ∨ b = .col)
    (hr : regionOf a = .regs l) (hn : n < 4) (v : Nat) : s.fabricWrite b a n v = s.withHub ((s.hub.fabErr 1 a).narrow l) := by
  simp [State.fabricWrite, not_refused hf, hr, hn, State.mapHub]

theorem fabricWrite_word {s : State} {b : Initiator} {a : Nat} {l : Loc} (hf : s.hub.blocked a = false ∨ b = .col)
    (hr : regionOf a = .regs l) (v : Nat) : s.fabricWrite b a 4 v = s.regPut (b == .col) l (a / 4 * 4) (BitVec.ofNat 32 v) := by
  simp [State.fabricWrite, not_refused hf, hr]

theorem fabricRead_refused {s : State} {b : Initiator} {a : Nat} (hb : s.hub.blocked a = true) (hc : b ≠ .col) (n : Nat) :
    s.fabricRead b a n = (0, s.withHub (s.hub.refuse a)) := by
  simp [State.fabricRead, hb, hc, State.mapHub]

theorem fabricRead_unmapped {s : State} {b : Initiator} {a : Nat} (hf : s.hub.blocked a = false ∨ b = .col) (hr : regionOf a = .unmapped)
    (n : Nat) : s.fabricRead b a n = (0, s.withHub (s.hub.fabErr 0 a)) := by
  simp [State.fabricRead, not_refused hf, hr, State.mapHub]

theorem fabricRead_sram {s : State} {b : Initiator} {a : Nat} (h0 : 0x01000000 ≤ a) (h1 : a < 0x02000000) (n : Nat) :
    s.fabricRead b a n = (ofBytes (s.load a n), s) := by
  simp [State.fabricRead, blocked_outside s.hub (.inr (by omega) : a < 0x118000 ∨ 0x120000 ≤ a), regionOf_sram h0 h1]

/-- A read of a whole register. -/
theorem fabricRead_word {s : State} {b : Initiator} {a : Nat} {l : Loc} (hf : s.hub.blocked a = false ∨ b = .col)
    (hr : regionOf a = .regs l) (h4 : a % 4 = 0) :
    s.fabricRead b a 4 = ((s.regRead l a 0xFFFFFFFF).1.toNat, (s.regRead l a 0xFFFFFFFF).2) := by
  have ha : a / 4 * 4 = a := by omega
  have hm : setBits 0#32 0 32 4294967295 = 4294967295#32 := by decide
  simp only [State.fabricRead, not_refused hf, hr, h4, ha]
  simp [hm, bits_all]

/-- A read of a register without RC fields. -/
theorem regRead_of_no_rc {s : State} {l : Loc} {a : Nat} (hm : rcMask (fieldsAt a) = 0) (touched : Word) : s.regRead l a touched = s.regGet l a := by
  simp [State.regRead, hm]

/-! ### Commands whose meaning forms no SID 0 record -/

section
variable {s t : State} {b : Initiator} {a n : Nat} {v : Word}

theorem exec_registerWrite_of (hn : n ≤ 4) (hw : s.fabricWrite b a n v.toNat = t) (ht : t.hub.sysq = []) :
    exec (.registerWrite b a n v) s = .next t := by
  show Host.Outcome.next (s.fabricWrite b a (min 4 n) v.toNat).settle = _
  rw [Nat.min_eq_right hn, hw, settle_none t ht]

theorem exec_rcRead_of {w : Nat} (hn : n ≤ 4) (hq : s.hub.sysq = []) (hr : s.fabricRead b a n = (w, t)) :
    exec (.rcRead b a n) s = .next (t.withHub { t.hub with readData := BitVec.ofNat 128 w }) := by
  have ht : t.hub.sysq = [] := by
    have h := fabricRead_sysq s b a n
    rwa [hr, hq] at h
  show Host.Outcome.next (s.readShown b a (min 4 n)).settle = _
  rw [Nat.min_eq_right hn, State.readShown, hr]
  exact congrArg _ (settle_none (t.withHub { t.hub with readData := BitVec.ofNat 128 w }) ht)

/-- The read of a counter's low word is a read of 32 bits. -/
theorem exec_counterLowRead_eq : exec (.counterLowRead b a) s = exec (.rcRead b a 4) s := rfl

theorem exec_readReplyParityFail_of {again : Bool} (hn : n ≤ 4) (hw : s.replyFail b a n again = t) (ht : t.hub.sysq = []) :
    exec (.readReplyParityFail b ⟨a, n⟩ again) s = .next t := by
  show Host.Outcome.next (s.replyFail b a (min 4 n) again).settle = _
  rw [Nat.min_eq_right hn, hw, settle_none t ht]

theorem exec_fabricParityFail_of {c : ParitySite} (hw : s.parityFail c = t) (ht : t.hub.sysq = []) :
    exec (.fabricParityFail c) s = .next t := by
  show Host.Outcome.next (s.parityFail c).settle = _
  rw [hw, settle_none t ht]

theorem exec_readDataArrival_of {e w : Nat} {bad : Bool} (he : e ≤ 72) (hw4 : w < 4) (hw : s.dataArrives e w bad = t) (ht : t.hub.sysq = []) :
    exec (.readDataArrival e (BitVec.ofNat 2 w) bad) s = .next t := by
  show Host.Outcome.next (if e ≤ 72 then s.dataArrives e (BitVec.ofNat 2 w).toNat bad else s).settle = _
  rw [if_pos he, BitVec.toNat_ofNat, Nat.mod_eq_of_lt hw4, hw, settle_none t ht]

theorem exec_shadowMismatch_of {k : Nat} {g : BitVec 4} (hk : k < 4) (hw : s.shadowMismatch k g.toNat = t) (ht : t.hub.sysq = []) :
    exec (.shadowMismatch k g) s = .next t := by
  show Host.Outcome.next (if k < 4 then s.shadowMismatch k g.toNat else s).settle = _
  rw [if_pos hk, hw, settle_none t ht]

end

/-! ### Register writes and reads (R7, R13, R22, R31) -/

/-- A write of SYS_ROUTE sets its four fields (R22). -/
theorem fabricWrite_sysRoute (s : State) (b : Initiator) (v : Word) : s.fabricWrite b 0x10040 4 v.toNat =
    s.withHub ((((s.hub.setFld 0x10040 0 7 (bits v 0 7)).setFld 0x10040 7 1 (bits v 7 1)).setFld 0x10040 8 5 (bits v 8 5)).setFld 0x10040 16 4
      (bits v 16 4)) := by
  have hr : regionOf 0x10040 = .regs ⟨.sys, 0, 0x40⟩ := by decide
  have hrw : ∀ f ∈ fieldsAt 0x10040, f.acc = .rw ∧ f.chk = .any := by decide
  rw [fabricWrite_word (.inl (blocked_outside _ (.inl (by decide)))) hr, BitVec.ofNat_toNat, BitVec.setWidth_eq]
  exact congrArg s.withHub (putReg_rw s.hub sysErr 0 0x10040 false v hrw)

/-- A read of SYS_DROP clears its count (R7, R22). -/
theorem fabricRead_sysDrop (s : State) (b : Initiator) : s.fabricRead b 0x10044 4 =
    ((s.hub.seen 0x10044).toNat, s.withHub (s.hub.setReg 0x10044 (s.hub.reg 0x10044 &&& 0xFFFF0000))) := by
  have hr : regionOf 0x10044 = .regs ⟨.sys, 0, 0x44⟩ := by decide
  have hm : rcMask (fieldsAt 0x10044) = 0xFFFF := by decide
  rw [fabricRead_word (.inl (blocked_outside _ (.inl (by decide)))) hr (by decide), State.regRead, hm]
  rfl

/-- A read of an engine's page, at a register without RC fields (R258). -/
theorem fabricRead_engReg {e off : Nat} (s : State) (b : Initiator) (he : e < 72) (ho : off < 0x100) (h4 : off % 4 = 0)
    (hm : rcMask (engFields off) = 0) :
    s.fabricRead b (engReg e off) 4 = ((s.hub.engRead e off).1.toNat, s.withHub (s.hub.engRead e off).2) := by
  have hf : s.hub.blocked (engReg e off) = false := blocked_outside _ (.inr (by unfold engReg; omega))
  have hfields : fieldsAt (engReg e off) = engFields off := by
    rw [fieldsAt, locate_engReg he ho]
    rfl
  have ha : engReg e off % 4 = 0 := by unfold engReg; omega
  rw [fabricRead_word (.inl hf) (regionOf_engReg he ho h4) ha, regRead_of_no_rc (hfields ▸ hm)]
  rfl

/-- The low word of CYCLES, whose read copies the counter, and the high word of the copy (R13, R258). -/
theorem fabricRead_cyclesLow (s : State) (b : Initiator) {e : Nat} (he : e < 72) : s.fabricRead b (engReg e 0x10) 4 =
    (((s.hub.engView e).cycles.setWidth 32).toNat, s.withHub (s.hub.copyLow (engReg e 0x10) ((s.hub.engView e).cycles.setWidth 128))) :=
  fabricRead_engReg s b he (by decide) (by decide) (by decide)

theorem fabricRead_cyclesHigh (s : State) (b : Initiator) {e : Nat} (he : e < 72) : s.fabricRead b (engReg e 0x14) 4 =
    ((s.hub.copied (engReg e 0x10) 32 &&& 0xFFFF).toNat, s) :=
  fabricRead_engReg s b he (by decide) (by decide) (by decide)

/-- Bits 32 to 47 of a copy of a 48-bit counter. -/
theorem copied_high (h : Hub) (a : Nat) (x : BitVec 48) (hc : tval 0 h.hold a = x.setWidth 128) :
    (h.copied a 32 &&& 0xFFFF).toNat = x.toNat / 2 ^ 32 := by
  have hx := x.isLt
  rw [Hub.copied, hc, BitVec.toNat_and, BitVec.toNat_setWidth, BitVec.toNat_ushiftRight, BitVec.toNat_setWidth, Nat.shiftRight_eq_div_pow]
  refine (Nat.and_two_pow_sub_one_eq_mod _ 16).trans ?_
  omega

theorem rcRead_cyclesHigh {t u : State} {b : Initiator} {e : Nat} {x : BitVec 48} (hq : t.hub.sysq = []) (he : e < 72)
    (hc : tval 0 t.hub.hold (engReg e 0x10) = x.setWidth 128) (hu : exec (.rcRead b (engReg e 0x14) 4) t = .next u) :
    u.hub.readData.toNat = x.toNat / 2 ^ 32 := by
  have hx := x.isLt
  rw [exec_rcRead_of le_rfl hq (fabricRead_cyclesHigh t b he), Host.Outcome.next.injEq] at hu
  rw [← hu, copied_high _ _ _ hc, BitVec.toNat_ofNat]
  omega

theorem counterLowRead_cycles (s : State) (b : Initiator) (e : Nat) (hq : s.hub.sysq = []) (he : e < 72) :
    ∃ t, exec (.counterLowRead b (engReg e 0x10)) s = .next t ∧
      t.hub.readData.toNat = (s.hub.engView e).cycles.toNat % 2 ^ 32 ∧
      t = s.withHub { s.hub with hold := t.hub.hold, readData := t.hub.readData } ∧
      ∀ u, exec (.rcRead b (engReg e 0x14) 4) t = .next u → u.hub.readData.toNat = (s.hub.engView e).cycles.toNat / 2 ^ 32 := by
  refine ⟨_, exec_counterLowRead_eq.trans (exec_rcRead_of le_rfl hq (fabricRead_cyclesLow s b he)), ?_, rfl, fun u hu => ?_⟩
  · have := (s.hub.engView e).cycles.isLt
    simp only [BitVec.toNat_ofNat, BitVec.toNat_setWidth]
    omega
  · refine rcRead_cyclesHigh ?_ he ?_ hu
    · exact hq
    · exact tval_tset_same _ _ _ _

/-! ### Replies that fail parity, and read data (R30, R245, R246) -/

theorem drainRequests_none (s : State) (h : s.hub.outq = []) : s.drainRequests = s := by
  rw [State.drainRequests, h]
  rfl

/-- With no window waiting for it a read whose reply failed is made again, and shows 0 where that reply failed too. -/
theorem replyFail_unread {s : State} {b : Initiator} {a : Nat} (n : Nat) (again : Bool)
    (hu : 72 < initiatorNumber b ∨ s.hub.outq = [] ∧ (s.hub.eng (initiatorNumber b)).reading a = none) :
    s.replyFail b a n again = if again then (s.readShown b a n).mapHub (fun h => { h.fabErr 2 a with readData := 0 }) else s.readShown b a n := by
  unfold State.replyFail
  dsimp only
  rcases hu with hu | ⟨ho, hr⟩
  · rw [if_neg (by omega : ¬ initiatorNumber b ≤ 72)]
  · rw [drainRequests_none s ho, ite_self, hr, ite_self]

theorem replyFail_reading {s : State} {b : Initiator} {a w : Nat} {q : WinSlot} (n : Nat) (again : Bool) (he : initiatorNumber b ≤ 72)
    (ho : s.hub.outq = []) (hr : (s.hub.eng (initiatorNumber b)).reading a = some (w, q)) :
    s.replyFail b a n again = s.slotAgain (initiatorNumber b) w q again := by
  unfold State.replyFail
  dsimp only
  rw [drainRequests_none s ho, ite_self, if_pos he, hr]

/-- The window slot takes the second reply, all zeros where it failed too, with PERR_RD set. -/
theorem slotAgain_slot (s : State) (e w : Nat) (q : WinSlot) (again : Bool) :
    ∃ ws, tget ((s.slotAgain e w q again).hub.eng e).slots w = some { q with data := some ws, bad := again } ∧
      (again = true → (s.slotAgain e w q again).hub.bit 0x10048 2 = true ∧ ∀ y ∈ ws, y = 0) := by
  let ws := (State.readWords (if e = 72 then .col else .eng e) q.addr q.count s).1
  refine ⟨if again then ws.map (fun _ => 0) else ws, ?_, fun hb => ⟨?_, ?_⟩⟩
  · simp only [State.slotAgain, mapHub_hub, setEng_eng_same, tget_tput_same]
    rfl
  · subst hb
    exact bit_fabErr _ 2 q.addr (by decide)
  · subst hb
    simp

theorem slotAgain_sysq (s : State) (e w : Nat) (q : WinSlot) (again : Bool) : (s.slotAgain e w q again).hub.sysq = s.hub.sysq := by
  cases again
  · exact readWords_sysq _ _ _ _
  · exact (fabErr_sysq _ 2 q.addr).trans (readWords_sysq _ _ _ _)

/-- Data that nothing asked for, or that has arrived or not been served, changes nothing. -/
theorem dataArrives_idle {s : State} {e w : Nat} {bad : Bool} (ho : s.hub.outq = [])
    (hn : tget (s.hub.eng e).slots w = none ∨ ∃ q, tget (s.hub.eng e).slots w = some q ∧ (q.arrived = true ∨ q.data = none)) :
    s.dataArrives e w bad = s := by
  unfold State.dataArrives
  rw [drainRequests_none s ho]
  rcases hn with hn | ⟨q, hn, hq⟩
  · simp [State.mapHub, hn]
  · have hskip : (q.arrived || q.data.isNone) = true := by rcases hq with hq | hq <;> simp [hq]
    simp [State.mapHub, hn, hskip]

/-- Data that a slot waits for arrives in it. -/
theorem dataArrives_slot {s : State} {e w : Nat} {q : WinSlot} {bad : Bool} (ho : s.hub.outq = []) (hs : tget (s.hub.eng e).slots w = some q)
    (ha : q.arrived = false) (hd : q.data.isSome = true) :
    s.dataArrives e w bad = s.withHub ((if bad then s.hub.fabErr 2 q.addr else s.hub).setEng e
      { s.hub.eng e with slots := tput (s.hub.eng e).slots w { q with arrived := true, bad := q.bad || bad } }) := by
  have hgo : (q.arrived || q.data.isNone) = false := by simp [ha, hd]
  unfold State.dataArrives
  rw [drainRequests_none s ho]
  simp [State.mapHub, hs, hgo]

/-! ### Words that fail parity (R29, R54, R55) -/

theorem missing_changes (h : Hub) (sid n : Nat) : ∃ rs, h.missing sid n = { h with regs := rs } := by
  unfold Hub.missing
  split
  · exact ⟨h.regs, rfl⟩
  · exact ⟨_, rfl⟩

theorem lose_changes (h : Hub) (sid : Nat) : ∃ rs xs, h.lose sid = { h with regs := rs, streams := xs } := by
  unfold Hub.lose
  dsimp only
  split
  · exact ⟨h.regs, h.streams, rfl⟩
  · obtain ⟨rs, hm⟩ := missing_changes h sid 1
    rw [hm]
    exact ⟨rs, _, rfl⟩

/-- A loss after the stream's first record is counted, and the next record carries GAP (R55). -/
theorem lose_formed {h : Hub} {sid : Nat} (hf : (h.strm sid).fresh = false) :
    h.lose sid = (h.bump (ctxReg sid 0x38) 0 16 1).setStrm sid { h.strm sid with gap := true } := by
  simp [Hub.lose, Hub.missing, hf]

theorem loseAt_sysq (h : Hub) (sid : Nat) (seq : BitVec 48) : (h.loseAt sid seq).sysq = h.sysq := by
  unfold Hub.loseAt
  split
  · obtain ⟨rs, hm⟩ := missing_changes h sid 1
    rw [hm]
  · obtain ⟨rs, xs, hl⟩ := lose_changes h sid
    rw [hl]

theorem loseAt_flight_later {h : Hub} {sid : Nat} {seq : BitVec 48} (hg : ∃ g ∈ h.flight, g.sid = sid ∧ seq.toNat < g.seq.toNat) :
    (h.loseAt sid seq).flight = flagNext sid seq h.flight := by
  have hany : h.flight.any (fun f => f.sid == sid && decide (seq.toNat < f.seq.toNat)) = true := by simpa using hg
  rw [Hub.loseAt, if_pos hany]

/-- Where no record of the stream in flight follows the one lost, the next one formed carries GAP. -/
theorem loseAt_last {h : Hub} {sid : Nat} {seq : BitVec 48} (hg : ∀ g ∈ h.flight, g.sid = sid → g.seq.toNat ≤ seq.toNat) :
    h.loseAt sid seq = h.lose sid := by
  have hany : ¬ h.flight.any (fun f => f.sid == sid && decide (seq.toNat < f.seq.toNat)) = true := by
    simpa using hg
  rw [Hub.loseAt, if_neg hany]

/-- A record that the host link or a MAC discards is lost; nothing else that the hub holds changes. -/
theorem parityRecord_delivery {h : Hub} {reg : Nat} (sid : Nat) (hr : 0xC0000 ≤ reg ∧ reg < 0xD0000 ∨ 0xF0000 ≤ reg ∧ reg < 0x100000) :
    h.parityRecord reg sid = h.lose sid := by
  rw [Hub.parityRecord, if_neg (by omega), if_neg (by omega), if_pos hr]

/-- A record that the contexts, the scheduler or a port discards is the oldest of its stream in flight. -/
theorem parityRecord_inFlight {h : Hub} {reg sid : Nat} {f : Flight} (h0 : 0x80000 ≤ reg) (h1 : reg < 0xC0000) (hf : h.oldest sid = some f) :
    h.parityRecord reg sid = Hub.toTaps ({ h with flight := dropFlight sid h.flight }.loseAt sid f.seq) sid := by
  rw [Hub.parityRecord, if_neg (by omega), if_neg (by omega), if_neg (by omega), hf]

/-- A record lost on delivery: the stream's next record carries GAP and its GAPS rises by 1 (R55). -/
theorem parityFail_delivery {s : State} {c : ParitySite} {sid : Nat} (hw : c.word = .record sid)
    (hr : 0xC0000 ≤ c.reg ∧ c.reg < 0xD0000 ∨ 0xF0000 ≤ c.reg ∧ c.reg < 0x100000) (hf : (s.hub.strm sid).fresh = false) (hsid : sid < 256) :
    ((s.parityFail c).hub.strm sid).gap = true ∧ (s.parityFail c).hub.sysq = s.hub.sysq ∧
      (s.parityFail c).hub.fld (ctxReg sid 0x38) 0 16 = min 65535 (s.hub.fld (ctxReg sid 0x38) 0 16 + 1) := by
  have hf' : ((s.hub.parityError c.reg c.ty c.inst).strm sid).fresh = false := by rw [parityError_strm, hf]
  have hhub : (s.parityFail c).hub = (s.hub.parityError c.reg c.ty c.inst).lose sid := by
    rw [State.parityFail, hw]
    exact parityRecord_delivery sid hr
  have hreg : (s.hub.parityError c.reg c.ty c.inst).reg (ctxReg sid 0x38) = s.hub.reg (ctxReg sid 0x38) :=
    reg_parityError_other _ _ _ _ _ (by unfold ctxReg; omega) (by unfold ctxReg; omega) (by unfold ctxReg; omega)
  rw [hhub, lose_formed hf']
  refine ⟨?_, parityError_sysq _ _ _ _, ?_⟩
  · rw [setStrm_strm_same]
  · refine (fld_bump_same _ _ _ _ (by decide)).trans ?_
    rw [Hub.fld, hreg]
    rfl

/-- The oldest record of a stream in flight is lost: the next one, in flight or still to be formed, carries GAP, and those that it held back pass
stage 7 (R18, R54, R55). -/
theorem parityFail_inFlight {s : State} {c : ParitySite} {sid : Nat} {f : Flight} (hw : c.word = .record sid) (h0 : 0x80000 ≤ c.reg)
    (h1 : c.reg < 0xC0000) (hf : s.hub.oldest sid = some f) :
    let left := dropFlight sid s.hub.flight
    (s.parityFail c).hub.sysq = s.hub.sysq ∧
      ((∃ g ∈ left, g.sid = sid ∧ f.seq.toNat < g.seq.toNat) → (s.parityFail c).hub.flight = (passSeven sid (flagNext sid f.seq left)).1) ∧
      ((∀ g ∈ left, g.sid = sid → g.seq.toNat ≤ f.seq.toNat) → (s.parityFail c).hub.flight = (passSeven sid left).1 ∧
        ((s.hub.strm sid).fresh = false → ((s.parityFail c).hub.strm sid).gap = true)) := by
  intro left
  let h : Hub := { s.hub.parityError c.reg c.ty c.inst with flight := left }
  have hhub : (s.parityFail c).hub = (h.loseAt sid f.seq).toTaps sid := by
    have hold : (s.hub.parityError c.reg c.ty c.inst).oldest sid = some f := by rw [Hub.oldest, parityError_flight, ← Hub.oldest, hf]
    rw [State.parityFail, hw]
    refine (parityRecord_inFlight h0 h1 hold).trans ?_
    rw [parityError_flight]
  rw [hhub]
  refine ⟨(loseAt_sysq _ _ _).trans (parityError_sysq _ _ _ _), fun hg => ?_, fun hg => ⟨?_, fun hfresh => ?_⟩⟩
  · exact congrArg (fun l => (passSeven sid l).1) (loseAt_flight_later (h := h) hg)
  · obtain ⟨rs, xs, hl⟩ := lose_changes h sid
    rw [loseAt_last (h := h) hg, hl]
    rfl
  · have hfresh' : (h.strm sid).fresh = false := by
      rw [← hfresh, ← parityError_strm s.hub c.reg c.ty c.inst sid]
      rfl
    rw [loseAt_last (h := h) hg, lose_formed hfresh']
    exact congrArg Stream.gap (setStrm_strm_same _ _ _)

/-- A fetch or a load of an engine that runs is counted and traps (R241, R250). -/
theorem parityFail_engine {s : State} {c : ParitySite} (hw : c.word = .fetch ∨ c.word = .load) (hi : c.inst ≤ 72)
    (hr : (s.hub.eng c.inst).st.runs = true) : s.parityFail c =
      (s.withHub (s.hub.setFld c.reg 0 16 (min 65535 (s.hub.fld c.reg 0 16 + 1)))).trapTo c.inst 10 (if c.word = .load then 1 else 0) := by
  have hb := bump_one s.hub c.reg 0 16
  rcases hw with hw | hw <;> simp [State.parityFail, hw, hi, hr, State.mapHub, hb]

theorem parityFail_engine_stopped {s : State} {c : ParitySite} (hw : c.word = .fetch ∨ c.word = .load)
    (hr : (s.hub.eng c.inst).st.runs = false) : s.parityFail c = s := by
  rcases hw with hw | hw <;> simp [State.parityFail, hw, hr]

/-! ### Mismatches of a shadow (R284 to R286) -/

/-- Without a dwell that compares there is nothing to differ. -/
theorem mismatch_idle {h : Hub} {k : Nat} (g : Nat) (hn : (h.shd k).live = none ∨ (h.shd k).phase ≠ 2) : h.mismatch k g = h := by
  unfold Hub.mismatch
  dsimp only
  split
  · rfl
  next m hm => rw [if_pos (hn.resolve_left (by rw [hm]; exact Option.some_ne_none m))]

/-- A mismatch freezes the witness, starts the hold, and is recorded and counted (R285, R297). -/
theorem mismatch_compared {h : Hub} {k m : Nat} (g : Nat) (hk : k < 4) (hl : (h.shd k).live = some m) (hp : (h.shd k).phase = 2) :
    h.mismatch k g = ((h.setShd k { h.shd k with phase := 3, outs := [], smps := [], since := h.now, wit := h.witnessOf k m g }).setReg 0x100030
      (BitVec.ofNat 32 (k + m * 2 ^ 4 + g * 2 ^ 12))).setFld (0x100020 + 4 * k) 0 8 (min 255 (h.fld (0x100020 + 4 * k) 0 8 + 1)) := by
  unfold Hub.mismatch
  dsimp only
  rw [hl]
  dsimp only
  rw [if_neg (by simp [hp]), Hub.rpCount, bump_one, Hub.fld, reg_setReg_other _ _ _ _ (by omega)]
  rfl

theorem ramStore_hub (e : Nat) (l : List Half) : ∀ (s : State) (w : Nat), (s.ramStore e w l).hub = s.hub := by
  induction l with
  | nil => intro s w; rfl
  | cons x l ih => intro s w; exact ih _ _

theorem drainStore_changes (s : State) (e : Nat) : ∃ es, (s.drainStore e).hub = { s.hub with engines := es } := by
  unfold State.drainStore
  dsimp only
  split
  · exact ⟨s.hub.engines, rfl⟩
  · rw [mapHub_hub, ramStore_hub]
    exact ⟨_, rfl⟩

/-- The hub apart from its engines and their control pages is that of another. -/
def Hub.SameBesideEngines (g h : Hub) : Prop :=
  g.sysq = h.sysq ∧ g.rp = h.rp ∧ ∀ a < 0x120000, g.reg a = h.reg a

/-- The start of a third opinion changes engines and an engine's RERUNS alone (R286). -/
theorem beginRun_third (s : State) (e : Nat) (word : Word) (d : DispatchEntry) (r : Record) (id : Nat) (hd : d.third = true) :
    (s.beginRun e word d r id).hub.SameBesideEngines s.hub := by
  unfold State.beginRun
  simp only [hd, if_true, store_hub]
  obtain ⟨es, hh⟩ := drainStore_changes _ e
  rw [hh]
  split
  · exact ⟨rfl, rfl, fun a ha => reg_bump_other _ _ _ _ _ _ (by unfold engReg; omega)⟩
  · exact ⟨rfl, rfl, fun _ _ => rfl⟩

theorem startThird_same (s : State) (e : Nat) (d : DispatchEntry) (hd : d.third = true) : (s.startThird e d).hub.SameBesideEngines s.hub := by
  unfold State.startThird
  dsimp only
  split
  · split
    · exact beginRun_third _ _ _ _ _ _ hd
    · exact ⟨rfl, rfl, fun _ _ => rfl⟩
  · exact ⟨rfl, rfl, fun _ _ => rfl⟩

/-- The third opinion is noted on the pair, where there is an engine to run it; beside that, engines and their pages alone change (R286). -/
theorem thirdOpinion_same (s : State) : (s.thirdOpinion).hub.SameBesideEngines s.hub ∨
    ∃ t, (s.thirdOpinion).hub.SameBesideEngines (s.hub.setPair (fun x => { x with third := some { eng := t } })) := by
  unfold State.thirdOpinion
  dsimp only
  split
  · exact .inl ⟨rfl, rfl, fun _ _ => rfl⟩
  · split
    next r t _ _ =>
      refine .inr ⟨t, ?_⟩
      split
      · exact startThird_same _ _ _ rfl
      · exact ⟨rfl, rfl, fun _ _ => rfl⟩
    · exact .inl ⟨rfl, rfl, fun _ _ => rfl⟩

/-- What the third opinion leaves of the hold that it decides, and of the registers. -/
theorem thirdOpinion_keeps (s : State) : (s.thirdOpinion).hub.sysq = s.hub.sysq ∧ ((s.thirdOpinion).hub.shd 3).phase = (s.hub.shd 3).phase ∧
    ((s.thirdOpinion).hub.shd 3).wit = (s.hub.shd 3).wit ∧ ((s.thirdOpinion).hub.shd 3).since = (s.hub.shd 3).since ∧
    ∀ a < 0x120000, (s.thirdOpinion).hub.reg a = s.hub.reg a := by
  rcases thirdOpinion_same s with ⟨hq, hrp, hreg⟩ | ⟨t, hq, hrp, hreg⟩
  · have kept : (s.thirdOpinion).hub.shd 3 = s.hub.shd 3 := by rw [Hub.shd, hrp, Hub.shd]
    rw [kept]
    exact ⟨hq, rfl, rfl, rfl, hreg⟩
  · have noted : (s.thirdOpinion).hub.shd 3 = { s.hub.shd 3 with third := some { eng := t } } := by
      rw [Hub.shd, hrp]
      exact setShd_shd_same _ _ _
    rw [noted]
    exact ⟨hq, rfl, rfl, rfl, hreg⟩

theorem shadowMismatch_idle {s : State} {k : Nat} (g : Nat) (ho : s.hub.outq = []) (hn : (s.hub.shd k).live = none ∨ (s.hub.shd k).phase ≠ 2) :
    s.shadowMismatch k g = s := by
  have hsame : s.mapHub (fun h => h.mismatch k g) = s := congrArg s.withHub (mismatch_idle g hn)
  unfold State.shadowMismatch
  dsimp only
  rw [drainRequests_none s ho, ite_self, hsame, if_neg (by rintro ⟨-, h2, h3⟩; omega)]

/-- A slice or context that differs is held, without a third opinion of the hub's own. -/
theorem shadowMismatch_unit {s : State} {k : Nat} (g : Nat) (hk : k < 3) : s.shadowMismatch k g = s.withHub (s.hub.mismatch k g) := by
  unfold State.shadowMismatch
  dsimp only
  rw [if_neg (by omega), if_neg (by omega)]
  rfl

/-- An engine that differs is held, and the disputed run is run a third time. -/
theorem shadowMismatch_engine {s : State} {m : Nat} (g : Nat) (ho : s.hub.outq = []) (hl : (s.hub.shd 3).live = some m)
    (hp : (s.hub.shd 3).phase = 2) : s.shadowMismatch 3 g = (s.withHub (s.hub.mismatch 3 g)).thirdOpinion := by
  have hphase : ((s.hub.mismatch 3 g).shd 3).phase = 3 := by
    rw [mismatch_compared g (by decide) hl hp]
    exact congrArg Shadow.phase (setShd_shd_same _ _ _)
  unfold State.shadowMismatch
  dsimp only
  rw [if_pos rfl, drainRequests_none s ho]
  exact if_pos ⟨rfl, hp, hphase⟩

/-- The hold of the engine pair begins with its witness as the runs have left it (R285). -/
theorem exec_shadowMismatch_engine {s : State} {m : Nat} (g : BitVec 4) (hq : s.hub.sysq = []) (hl : (s.hub.shd 3).live = some m)
    (hp : (s.hub.shd 3).phase = 2) (ho : s.hub.outq = []) :
    ∃ t, exec (.shadowMismatch 3 g) s = .next t ∧ (t.hub.shd 3).phase = 3 ∧ (t.hub.shd 3).wit = (s.hub.shd 3).wit ∧
      (t.hub.shd 3).since = s.hub.now ∧ t.hub.reg 0x100030 = BitVec.ofNat 32 (3 + m * 2 ^ 4 + g.toNat * 2 ^ 12) ∧
      t.hub.fld 0x10002C 0 8 = min 255 (s.hub.fld 0x10002C 0 8 + 1) := by
  have hm := mismatch_compared g.toNat (by decide) hl hp
  have hshd : (s.hub.mismatch 3 g.toNat).shd 3 =
      { s.hub.shd 3 with phase := 3, outs := [], smps := [], since := s.hub.now, wit := (s.hub.shd 3).wit } := by
    rw [hm]
    exact setShd_shd_same _ _ _
  obtain ⟨keepq, keepphase, keepwit, keepsince, keepreg⟩ := thirdOpinion_keeps (s.withHub (s.hub.mismatch 3 g.toNat))
  refine ⟨_, exec_shadowMismatch_of (by decide) (shadowMismatch_engine g.toNat ho hl hp) (keepq.trans ?_), ?_, ?_, ?_, ?_, ?_⟩
  · rw [hm]
    exact hq
  · rw [keepphase, hshd]
  · rw [keepwit, hshd]
  · rw [keepsince, hshd]
  · rw [keepreg _ (by decide), hm, Hub.setFld, reg_setReg_other _ _ _ _ (by decide), reg_setReg_same]
  · rw [Hub.fld, keepreg _ (by decide), hm]
    refine (fld_setFld_same _ _ _ _ _ (by decide)).trans (Nat.mod_eq_of_lt (by omega))

/-! ### The statement -/

/-- What a narrow write flags beside WIDTH in each kind of block (R31, R36, R225). -/
theorem narrow_other {h : Hub} {l : Loc} (hl : l.blk ≠ .layout) (he : l.blk ≠ .eq) : h.narrow l = h := by
  unfold Hub.narrow
  split
  next h1 => exact absurd h1 hl
  next h1 => exact absurd h1 he
  · rfl

theorem narrow_layout {h : Hub} {l : Loc} (hl : l.blk = .layout) : h.narrow l = h.flag ltErr 2 0 := by
  rw [Hub.narrow, hl]

theorem narrow_eqPush {h : Hub} {l : Loc} (hl : l.blk = .eq) (h0 : 0x10 ≤ l.off) (h1 : l.off < 0x20) : h.narrow l = h.eqPush l.idx 16 0 := by
  rw [Hub.narrow, hl]
  exact if_pos ⟨h0, h1⟩

theorem narrow_eqOther {h : Hub} {l : Loc} (hl : l.blk = .eq) (ho : l.off < 0x10 ∨ 0x20 ≤ l.off) : h.narrow l = h := by
  rw [Hub.narrow, hl]
  exact if_neg (by omega)

theorem narrow_sysq (h : Hub) (l : Loc) : (h.narrow l).sysq = h.sysq := by
  unfold Hub.narrow
  split
  · rfl
  · split <;> rfl
  · rfl

theorem exec_narrowWrite {s : State} {b : Initiator} {a n : Nat} {l : Loc} {g : Hub} (v : Word) (hq : s.hub.sysq = [])
    (hf : s.hub.blocked a = false ∨ b = .col) (hr : regionOf a = .regs l) (hn : n < 4) (hg : (s.hub.fabErr 1 a).narrow l = g) :
    exec (.registerWrite b a n v) s = .next (s.withHub g) := by
  have hw := fabricWrite_narrow (b := b) hf hr hn v.toNat
  rw [hg] at hw
  refine exec_registerWrite_of (by omega) hw ?_
  rw [← hg]
  exact (narrow_sysq _ _).trans ((fabErr_sysq _ _ _).trans hq)

/-- A reply that fails twice shows 0 and sets PERR_RD (R30). -/
theorem exec_replyFail_twice {s : State} {b : Initiator} {a n : Nat} (hq : s.hub.sysq = []) (hn : n ≤ 4)
    (hu : 72 < initiatorNumber b ∨ s.hub.outq = [] ∧ (s.hub.eng (initiatorNumber b)).reading a = none) :
    ∃ t, exec (.readReplyParityFail b ⟨a, n⟩ true) s = .next t ∧ t.hub.readData = 0 ∧ t.hub.bit 0x10048 2 = true := by
  refine ⟨_, exec_readReplyParityFail_of hn (replyFail_unread n true hu) ?_, rfl, ?_⟩
  · exact (fabErr_sysq _ 2 a).trans ((fabricRead_sysq s b a n).trans hq)
  · exact bit_fabErr _ 2 a (by decide)

theorem exec_replyFail_once {s : State} {b : Initiator} {a n : Nat} (hq : s.hub.sysq = []) (hn : n ≤ 4)
    (hu : 72 < initiatorNumber b ∨ s.hub.outq = [] ∧ (s.hub.eng (initiatorNumber b)).reading a = none) :
    exec (.readReplyParityFail b ⟨a, n⟩ false) s = exec (.rcRead b a n) s := by
  have hsysq := (fabricRead_sysq s b a n).trans hq
  rw [exec_readReplyParityFail_of hn (replyFail_unread n false hu) hsysq, exec_rcRead_of hn hq rfl]
  rfl

/-- Settles O47: one lemma above for each kind of access, parity failure, arrival and mismatch. -/
theorem fabricCommands : Obligations.FabricCommands := by
  intro s b a n v hq h1 h4 sram err free shown unread
  have errq : ∀ k, (err k).sysq = [] := fun k => (fabErr_sysq s.hub k a).trans hq
  refine ⟨?_, ?_, ?_, ?_, ?_, ?_, ?_, ?_, ?_, ?_, ?_, ?_, ?_, ?_, ?_, ?_, ?_, ?_, ?_, ?_, ?_, ?_, ?_, ?_, ?_, ?_, ?_⟩
  -- writes: storage, nothing there, narrow ones block by block, SYS_ROUTE
  · intro ⟨h0, hend⟩
    exact exec_registerWrite_of h4 (fabricWrite_sram h0 (by omega) n v.toNat) hq
  · intro hf hr
    exact exec_registerWrite_of h4 (fabricWrite_unmapped hf hr n v.toNat) (errq 0)
  · intro l hf hr hn hl he
    exact exec_narrowWrite v hq hf hr hn (narrow_other hl he)
  · intro l hf hr hn hl
    exact exec_narrowWrite v hq hf hr hn (narrow_layout hl)
  · intro l hf hr hn hl ho
    exact exec_narrowWrite v hq hf hr hn (narrow_eqOther hl ho)
  · intro l hf hr hn hl h0 h1'
    exact exec_narrowWrite v hq hf hr hn (narrow_eqPush hl h0 h1')
  · exact exec_registerWrite_of le_rfl (fabricWrite_sysRoute s b v) hq
  -- blocked accesses
  · intro hb hc
    exact ⟨exec_registerWrite_of h4 (fabricWrite_refused hb hc n v.toNat) ((refuse_sysq _ _).trans hq),
      exec_rcRead_of h4 hq (fabricRead_refused hb hc n)⟩
  -- reads: storage, nothing there, an RC field, a counter's two words
  · intro ⟨h0, hend⟩
    exact exec_rcRead_of h4 hq (fabricRead_sram h0 (by omega) n)
  · intro hf hr
    exact exec_rcRead_of h4 hq (fabricRead_unmapped hf hr n)
  · exact exec_rcRead_of le_rfl hq (fabricRead_sysDrop s b)
  · intro e he
    exact counterLowRead_cycles s b e hq he
  -- replies that fail parity
  · exact exec_replyFail_once hq h4
  · exact exec_replyFail_twice hq h4
  · intro w q again he ho hr
    obtain ⟨ws, hslot, hagain⟩ := slotAgain_slot s (initiatorNumber b) w q again
    exact ⟨_, ws, exec_readReplyParityFail_of h4 (replyFail_reading n again he ho hr) ((slotAgain_sysq _ _ _ _ _).trans hq), hslot, hagain⟩
  -- words that fail parity, by consumer
  · intro c hc
    rw [← parityError_eq]
    refine exec_fabricParityFail_of ?_ ((parityError_sysq _ _ _ _).trans hq)
    rcases hc with hc | hc <;> simp [State.parityFail, hc, State.mapHub]
  · intro c sid hc hr hf hsid
    obtain ⟨hgap, hsysq, hgaps⟩ := parityFail_delivery hc hr hf hsid
    refine ⟨_, exec_fabricParityFail_of rfl (hsysq.trans hq), hgap, ?_, hgaps⟩
    rw [State.parityFail, hc]
    rfl
  · intro c sid f hc h0 hend hf left
    obtain ⟨hsysq, hlater, hlast⟩ := parityFail_inFlight hc h0 hend hf
    refine ⟨_, exec_fabricParityFail_of rfl (hsysq.trans hq), ?_, hlater, hlast⟩
    rw [State.parityFail, hc]
    rfl
  · intro c hc
    refine exec_fabricParityFail_of ?_ hq
    rw [State.parityFail, hc]
    rfl
  · intro c k hc hi
    refine exec_fabricParityFail_of ?_ hq
    rw [State.parityFail, hc]
    exact if_pos hi
  · intro c hc hi hr
    exact congrArg (fun t => Host.Outcome.next (State.settle t)) (parityFail_engine hc hi hr)
  · intro c hc hr
    exact exec_fabricParityFail_of (parityFail_engine_stopped hc hr) hq
  -- the arrival of read data
  · intro e w bad he hw ho hn
    exact exec_readDataArrival_of he hw (dataArrives_idle ho hn) hq
  · intro e w q bad he hw ho hs ha hd
    refine ⟨_, exec_readDataArrival_of he hw (dataArrives_slot ho hs ha hd) ?_, setEng_eng_same _ _ _, ?_, ?_, rfl⟩
    · cases bad
      · exact hq
      · exact (fabErr_sysq _ 2 q.addr).trans hq
    · rintro rfl
      rfl
    · rintro rfl
      exact bit_fabErr _ 2 q.addr (by decide)
  -- mismatches of a shadow
  · intro k g hk ho hn
    exact exec_shadowMismatch_of hk (shadowMismatch_idle g.toNat ho hn) hq
  · intro k m g hk hl hp
    rw [← mismatch_compared g.toNat (by omega) hl hp]
    refine exec_shadowMismatch_of (by omega) (shadowMismatch_unit g.toNat hk) ?_
    rw [mismatch_compared g.toNat (by omega) hl hp]
    exact hq
  · intro m g hl hp ho
    exact exec_shadowMismatch_engine g hq hl hp ho

end Sys2Proof.Machine
end

section
/-! SUPPORT. Event queues: the item a pop returns, the stages a pop discards, what a pop of each kind gives and leaves, the bits of EQ_STATUS, and
the statement QueuePop assembled from them. -/

namespace Sys2Proof.Machine

/-! ### The item a pop returns (R220) -/

/-- Among the items, x is the eligible one of the highest priority and of those the first to arrive: a arrived before it and b after it. -/
structure Foremost (items a : List EqItem) (x : EqItem) (b : List EqItem) : Prop where
  split  : items = a ++ x :: b
  ripe   : x.ripe = true
  before : ∀ y ∈ a, y.ripe = true → recPri y.rcd < recPri x.rcd
  after  : ∀ y ∈ b, y.ripe = true → recPri y.rcd ≤ recPri x.rcd

/-- The choice goes on with an item that is eligible and of a higher priority than the best before it. -/
theorem headPlace_cons (y : EqItem) (l : List EqItem) (i : Nat) (best : Option (Nat × Nat)) : headPlace (y :: l) i best =
    headPlace l (i + 1) (if y.ripe = true ∧ ∀ c ∈ best, c.2 < recPri y.rcd then some (i, recPri y.rcd) else best) := by
  cases best <;> simp [headPlace]

/-- Items that are too young, or of no higher priority than the best before them, do not change the choice. -/
theorem headPlace_unchanged {l : List EqItem} {best : Option (Nat × Nat)} (i : Nat)
    (hl : ∀ y ∈ l, y.ripe = true → ∃ c ∈ best, recPri y.rcd ≤ c.2) : headPlace l i best = best.map (fun c => c.1) := by
  induction l generalizing i with
  | nil => rfl
  | cons y l ih =>
    obtain ⟨hy, hl⟩ := List.forall_mem_cons.mp hl
    rw [headPlace_cons, if_neg, ih (i + 1) hl]
    rintro ⟨hr, hall⟩
    obtain ⟨c, hc, hle⟩ := hy hr
    exact absurd (hall c hc) hle.not_gt

theorem headPlace_foremost {l a b : List EqItem} {x : EqItem} (i : Nat) (best : Option (Nat × Nat)) (hbest : ∀ c ∈ best, c.2 < recPri x.rcd)
    (hf : Foremost l a x b) : headPlace l i best = some (i + a.length) := by
  obtain ⟨rfl, hx, ha, hb⟩ := hf
  induction a generalizing i best with
  | nil =>
    rw [List.nil_append, headPlace_cons, if_pos ⟨hx, hbest⟩, headPlace_unchanged _ fun y hy hr => ⟨_, rfl, hb y hy hr⟩]
    rfl
  | cons y a ih =>
    obtain ⟨hy, ha⟩ := List.forall_mem_cons.mp ha
    rw [List.cons_append, headPlace_cons, ih _ _ _ ha, List.length_cons, Nat.add_assoc, Nat.add_comm 1]
    split
    case isTrue h =>
      rintro _ ⟨rfl⟩
      exact hy h.1
    case isFalse => exact hbest

/-- Among items of which one is eligible, one is foremost. -/
theorem exists_foremost {l : List EqItem} (hl : ∃ y ∈ l, y.ripe = true) : ∃ a x b, Foremost l a x b := by
  induction l with
  | nil => simp at hl
  | cons y l ih =>
    by_cases ht : ∃ z ∈ l, z.ripe = true
    · obtain ⟨a, x, b, rfl, hx, ha, hb⟩ := ih ht
      by_cases hy : y.ripe = true ∧ recPri x.rcd ≤ recPri y.rcd
      · refine ⟨[], y, a ++ x :: b, rfl, hy.1, by simp, fun z hz hr => ?_⟩
        rcases List.mem_append.mp hz with hz | hz
        · exact (ha z hz hr).le.trans hy.2
        · rcases List.mem_cons.mp hz with rfl | hz
          · exact hy.2
          · exact (hb z hz hr).trans hy.2
      · refine ⟨y :: a, x, b, rfl, hx, List.forall_mem_cons.mpr ⟨fun hr => ?_, ha⟩, hb⟩
        exact Nat.lt_of_not_le fun hle => hy ⟨hr, hle⟩
    · obtain ⟨z, hz, hr⟩ := hl
      rcases List.mem_cons.mp hz with rfl | hz
      · exact ⟨[], z, l, rfl, hr, by simp, fun w hw hwr => absurd ⟨w, hw, hwr⟩ ht⟩
      · exact absurd ⟨z, hz, hr⟩ ht

theorem headPlace_of_foremost {l a b : List EqItem} {x : EqItem} (hf : Foremost l a x b) : headPlace l 0 none = some a.length := by
  simpa using headPlace_foremost 0 none (by simp) hf

theorem headPlace_of_young {l : List EqItem} (hl : ∀ x ∈ l, x.ripe = false) : headPlace l 0 none = none :=
  headPlace_unchanged 0 fun y hy hr => by simp [hl y hy] at hr

theorem head_of_foremost {e : EventQueue} {a b : List EqItem} {x : EqItem} (hf : Foremost e.items a x b) : e.head = some x := by
  rw [EventQueue.head, headPlace_of_foremost hf, hf.split]
  simp

theorem head_of_young {e : EventQueue} (hl : ∀ x ∈ e.items, x.ripe = false) : e.head = none := by
  simp [EventQueue.head, headPlace_of_young hl]

/-- Either a pop finds an eligible item, the foremost, or every item is too young. -/
theorem foremost_or_young (l : List EqItem) : (∃ a x b, Foremost l a x b) ∨ ∀ x ∈ l, x.ripe = false := by
  by_cases hl : ∃ y ∈ l, y.ripe = true
  · exact .inl (exists_foremost hl)
  · exact .inr fun x hx => Bool.eq_false_iff.mpr fun hr => hl ⟨x, hx, hr⟩

theorem without_foremost {e : EventQueue} {a b : List EqItem} {x : EqItem} (hf : Foremost e.items a x b) :
    e.without a.length = { e with items := a ++ b } := by
  simp [EventQueue.without, hf.split]

/-! ### Stages that fail parity (R223) -/

@[simp] theorem setEq_eq_same (h : Hub) (q : Nat) (x : EventQueue) : (h.setEq q x).eq_ q = x := tval_tset_same _ _ _ _
theorem setEq_eq_other (h : Hub) (q p : Nat) (x : EventQueue) (hp : p ≠ q) : (h.setEq q x).eq_ p = h.eq_ p := tval_tset_other _ _ _ _ _ _ hp

/-- How many stages of queue q will fail parity. -/
def Hub.badStages (h : Hub) (q : Nat) : Nat := ((h.eq_ q).items.filter (fun x => x.bad)).length

theorem badStages_setEq_same (h : Hub) (q : Nat) (e : EventQueue) : (h.setEq q e).badStages q = (e.items.filter (fun x => x.bad)).length := by
  rw [Hub.badStages, setEq_eq_same]

/-- An item comes into a queue with good parity, and the one it may replace leaves it. -/
theorem badStages_insert_le (h : Hub) (p q : Nat) (r : Record) : (h.insert p r).badStages q ≤ h.badStages q := by
  by_cases hp : q = p
  · subst hp
    have fewer : ∀ l : List EqItem, l.Sublist (h.eq_ q).items →
        (h.setEq q { h.eq_ q with items := l ++ [{ rcd := r, at_ := h.now, ripe := false }] }).badStages q ≤ h.badStages q := by
      intro l hl
      simpa [badStages_setEq_same, Hub.badStages] using (hl.filter (fun x => x.bad)).length_le
    unfold Hub.insert
    dsimp only
    split
    · exact fewer _ (List.drop_sublist 1 _)
    · exact fewer _ (List.Sublist.refl _)
  · unfold Hub.insert
    dsimp only
    split <;> exact (congrArg (fun e : EventQueue => (e.items.filter (fun x => x.bad)).length) (setEq_eq_other h p q _ hp)).le

theorem badStages_health_le (h : Hub) (ty inst code value q : Nat) : (h.health ty inst code value).badStages q ≤ h.badStages q := by
  unfold Hub.health
  dsimp only
  split
  · exact badStages_insert_le _ _ _ _
  · split <;> exact Nat.le_refl _

theorem badStages_parityError_le (h : Hub) (reg ty inst q : Nat) : (h.parityError reg ty inst).badStages q ≤ h.badStages q :=
  badStages_health_le _ _ _ _ _ _

section
variable {h : Hub} {q : Nat} {a b : List EqItem} {x : EqItem}

theorem popBadStage_foremost (hf : Foremost (h.eq_ q).items a x b) :
    h.popBadStage q = (h.setEq q { h.eq_ q with items := a ++ b }).parityError 0xDF040 0x0040 q := by
  simp only [Hub.popBadStage, headPlace_of_foremost hf, without_foremost hf]

theorem badStages_popBadStage_lt (hf : Foremost (h.eq_ q).items a x b) (hx : x.bad = true) : (h.popBadStage q).badStages q < h.badStages q := by
  rw [popBadStage_foremost hf]
  refine Nat.lt_of_le_of_lt (badStages_parityError_le _ _ _ _ _) ?_
  rw [badStages_setEq_same, Hub.badStages, hf.split]
  simp [hx]

/-- A pop that would read a good stage, or none, discards nothing. -/
theorem dropBadly_of_good (n : Nat) (hg : ∀ y, (h.eq_ q).head = some y → y.bad = false) : h.dropBadly n q = h := by
  cases n with
  | zero => rfl
  | succ n =>
    unfold Hub.dropBadly
    split
    · rfl
    case h_2 y hy => simp [hg y hy]

theorem dropBadly_succ_of_bad (n : Nat) (hf : Foremost (h.eq_ q).items a x b) (hx : x.bad = true) :
    h.dropBadly (n + 1) q = (h.popBadStage q).dropBadly n q := by
  simp [Hub.dropBadly, head_of_foremost hf, hx]

end

/-- The stage a pop would read is good, or none, or it is a bad one. -/
theorem good_or_bad (h : Hub) (q : Nat) :
    (∀ y, (h.eq_ q).head = some y → y.bad = false) ∨ ∃ a x b, Foremost (h.eq_ q).items a x b ∧ x.bad = true := by
  rcases foremost_or_young (h.eq_ q).items with ⟨a, x, b, hf⟩ | hl
  · cases hx : x.bad with
    | false => exact .inl (by simpa [head_of_foremost hf] using hx)
    | true => exact .inr ⟨a, x, b, hf, hx⟩
  · exact .inl (by simp [head_of_young hl])

/-- No bound that allows as many discards as there are bad stages is ever met: a pop discards the same under each. -/
theorem dropBadly_eq_of_le {q : Nat} (n m : Nat) {h : Hub} (hn : h.badStages q ≤ n) (hm : h.badStages q ≤ m) :
    h.dropBadly n q = h.dropBadly m q := by
  induction hk : h.badStages q using Nat.strong_induction_on generalizing n m h with
  | _ k ih =>
    rcases good_or_bad h q with hg | ⟨a, x, b, hf, hx⟩
    · rw [dropBadly_of_good _ hg, dropBadly_of_good _ hg]
    · have fewer := badStages_popBadStage_lt hf hx
      obtain ⟨n, rfl⟩ : ∃ j, n = j + 1 := ⟨n - 1, by omega⟩
      obtain ⟨m, rfl⟩ : ∃ j, m = j + 1 := ⟨m - 1, by omega⟩
      rw [dropBadly_succ_of_bad n hf hx, dropBadly_succ_of_bad m hf hx, ih _ (hk ▸ fewer) n m (by omega) (by omega) rfl]

/-! ### A pop (R220, R222, R223) -/

section
variable {h : Hub} {q : Nat} {a b : List EqItem} {x : EqItem}

theorem pop_good (hf : Foremost (h.eq_ q).items a x b) (hx : x.bad = false) :
    h.pop q = (x.rcd, h.setEq q { items := a ++ b, last := some x.rcd }) := by
  have hd : h.dropBad q = h := dropBadly_of_good _ (by simpa [head_of_foremost hf] using hx)
  simp only [Hub.pop, hd, headPlace_of_foremost hf, without_foremost hf]
  simp [hf.split]

theorem pop_young (hl : ∀ y ∈ (h.eq_ q).items, y.ripe = false) :
    h.pop q = ((h.eq_ q).last.getD (unpackRecord 0), h.setFld (0xD0020 + 0x100 * q) 10 1 1) := by
  have hd : h.dropBad q = h := dropBadly_of_good _ (by simp [head_of_young hl])
  simp only [Hub.pop, hd, headPlace_of_young hl]
  rfl

theorem dropBad_bad (hf : Foremost (h.eq_ q).items a x b) (hx : x.bad = true) : h.dropBad q = (h.popBadStage q).dropBad q := by
  have fewer := badStages_popBadStage_lt hf hx
  calc h.dropBad q
    _ = h.dropBadly (h.badStages q + 1) q := dropBadly_eq_of_le _ _ (Nat.le_refl _) (Nat.le_succ _)
    _ = (h.popBadStage q).dropBadly (h.badStages q) q := dropBadly_succ_of_bad _ hf hx
    _ = (h.popBadStage q).dropBad q := dropBadly_eq_of_le _ _ fewer.le (Nat.le_refl _)

theorem headPop_bad (hf : Foremost (h.eq_ q).items a x b) (hx : x.bad = true) : h.headPop q false = (h.popBadStage q).headPop q false := by
  have same : h.pop q = (h.popBadStage q).pop q := by
    rw [Hub.pop, dropBad_bad hf hx, Hub.pop]
  simp only [Hub.headPop, same, Bool.false_eq_true, if_false]

end

theorem headPop_failing (h : Hub) (q : Nat) : h.headPop q true = (h.popBadStage q).headPop q false := rfl

theorem headPop_eq {h g : Hub} {q : Nat} {r : Record} (hp : h.pop q = (r, g)) :
    h.headPop q false = { g.copyLow (0xD0000 + 0x100 * q) (packRecord r) with readData := ((packRecord r).setWidth 32).setWidth 128 } := by
  simp only [Hub.headPop, hp, Bool.false_eq_true, if_false]

theorem packRecord_last (l : Option Record) : packRecord (l.getD (unpackRecord 0)) = (l.map packRecord).getD 0 := by
  cases l with
  | none => decide
  | some r => rfl

theorem exec_eqHeadPop (s : State) {q : Nat} (bad : Bool) (hq : q < 32) :
    exec (.eqHeadPop q bad) s = .next (s.withHub (s.hub.headPop q bad)).settle := by
  show s.run (fun h => if q < 32 then h.headPop q bad else h) = _
  simp only [hq, if_true]
  rfl

theorem exec_eqHeadPop_of {s : State} {q : Nat} {g : Hub} (hs : s.hub.sysq = []) (hq : q < 32) (hg : s.hub.headPop q false = g) :
    exec (.eqHeadPop q false) s = .next (s.withHub g) := by
  rw [exec_eqHeadPop s false hq, settle_none _ ((headPop_sysq _ _).trans hs), hg]

/-- A pop whose next stage is discarded is the pop of the machine without that stage. -/
theorem exec_eqHeadPop_discard {s : State} {q : Nat} {bad : Bool} (hq : q < 32)
    (hd : s.hub.headPop q bad = (s.hub.popBadStage q).headPop q false) :
    exec (.eqHeadPop q bad) s = exec (.eqHeadPop q false) (s.withHub (s.hub.popBadStage q)) := by
  rw [exec_eqHeadPop s bad hq, exec_eqHeadPop _ false hq, hd]

/-! ### EQ_STATUS (R222, R225) -/

theorem getElem_setBits (w : Word) (lsb width v i : Nat) (hi : i < 32) :
    (setBits w lsb width v)[i] = if lsb ≤ i ∧ i < lsb + width then v.testBit (i - lsb) else w[i] := by
  simp only [← BitVec.getLsbD_eq_getElem, setBits, BitVec.getLsbD_or, BitVec.getLsbD_and, BitVec.getLsbD_not, BitVec.getLsbD_ofNat,
    Nat.testBit_shiftLeft, Nat.testBit_two_pow_sub_one]
  by_cases h1 : lsb ≤ i
  · have hw : i - lsb < width ↔ i < lsb + width := by omega
    by_cases h2 : i < lsb + width <;> simp [hi, h1, h2, hw]
  · simp [hi, h1]

theorem eqStatus_empty (h : Hub) (q : Nat) : (h.eqStatus q).getLsbD 8 = true ↔ (h.eq_ q).items = [] := by
  unfold Hub.eqStatus
  dsimp only
  split <;> cases (h.eq_ q).items <;> simp [getElem_setBits]

theorem eqStatus_ready (h : Hub) (q : Nat) : (h.eqStatus q).getLsbD 9 = true ↔ ∃ x ∈ (h.eq_ q).items, x.ripe = true := by
  rcases foremost_or_young (h.eq_ q).items with ⟨a, x, b, hf⟩ | hl
  · have hx : ∃ x ∈ (h.eq_ q).items, x.ripe = true := ⟨x, by simp [hf.split], hf.ripe⟩
    simp [Hub.eqStatus, head_of_foremost hf, getElem_setBits, hx]
  · have hn : ¬ ∃ x ∈ (h.eq_ q).items, x.ripe = true := fun ⟨x, hx, hr⟩ => by simp [hl x hx] at hr
    simp [Hub.eqStatus, head_of_young hl, getElem_setBits, hn]

theorem eqStatus_underrun (h : Hub) (q : Nat) : (h.eqStatus q).getLsbD 10 = h.bit (0xD0020 + 0x100 * q) 10 := by
  show _ = (h.reg (0xD0020 + 0x100 * q)).getLsbD 10
  unfold Hub.eqStatus
  dsimp only
  split <;> simp [getElem_setBits]

theorem locate_eqReg {q off : Nat} (hq : q < 32) (ho : off < 0x100) : locate (0xD0000 + 0x100 * q + off) = some ⟨.eq, q, off⟩ := by
  have hp : (0xD0000 + 0x100 * q + off) / 0x10000 = 0x0D := by omega
  have hm : (0xD0000 + 0x100 * q + off) % 0x10000 = 0x100 * q + off := by omega
  simp only [locate, hp, hm, page]
  rw [if_pos (by omega)]
  congr 2 <;> omega

theorem regionOf_eqReg {q off : Nat} (hq : q < 32) (ho : off < 0x100) (h4 : off % 4 = 0) :
    regionOf (0xD0000 + 0x100 * q + off) = .regs ⟨.eq, q, off⟩ := by
  have ha : (0xD0000 + 0x100 * q + off) / 4 * 4 = 0xD0000 + 0x100 * q + off := by omega
  unfold regionOf
  rw [if_neg, if_neg, if_neg, ha, locate_eqReg hq ho]
  all_goals (simp only [sramBase, commonsBase, windowBase]; omega)

/-- A read of EQ_STATUS changes nothing. -/
theorem fabricRead_eqStatus (s : State) (b : Initiator) {q : Nat} (hq : q < 32) :
    s.fabricRead b (0xD0020 + 0x100 * q) 4 = ((s.hub.eqStatus q).toNat, s) := by
  have hplace : 0xD0020 + 0x100 * q = 0xD0000 + 0x100 * q + 0x20 := by omega
  have hf : s.hub.blocked (0xD0000 + 0x100 * q + 0x20) = false := blocked_outside _ (.inl (by omega))
  have hm : rcMask (fieldsAt (0xD0000 + 0x100 * q + 0x20)) = 0 := by
    rw [fieldsAt, locate_eqReg hq (by decide)]
    rfl
  rw [hplace, fabricRead_word (.inl hf) (regionOf_eqReg hq (by decide) (by decide)) (by omega), regRead_of_no_rc hm]
  rfl

/-! ### The statement -/

/-- Settles O9: a pop is the pop of the foremost item, by cases on the stage it reads; one that discards a stage is the pop of the hub without
it, since the bound on the stages discarded never binds. -/
theorem queuePop : Obligations.QueuePop := by
  unfold Obligations.QueuePop
  intro s q hs hq
  refine ⟨?_, ?_, ?_⟩
  -- an item is eligible
  · intro a x b hitems hx ha hb
    have hf : Foremost (s.hub.eq_ q).items a x b := ⟨hitems, hx, ha, hb⟩
    dsimp only
    rw [← popBadStage_foremost hf]
    refine ⟨fun hgood => ?_, fun hbad => ?_, ?_⟩
    · exact exec_eqHeadPop_of hs hq (headPop_eq (pop_good hf hgood))
    · exact exec_eqHeadPop_discard hq (headPop_bad hf hbad)
    · exact exec_eqHeadPop_discard hq (headPop_failing _ _)
  -- every item is too young
  · intro hl
    dsimp only
    rw [← packRecord_last]
    exact exec_eqHeadPop_of hs hq (headPop_eq (pop_young hl))
  -- EQ_STATUS
  · refine ⟨_, exec_rcRead_of le_rfl hs (fabricRead_eqStatus s .col hq), rfl, ?_, ?_, ?_⟩
    all_goals rw [BitVec.ofNat_toNat, BitVec.getLsbD_setWidth]
    · simpa using eqStatus_empty s.hub q
    · simpa using eqStatus_ready s.hub q
    · simpa using eqStatus_underrun s.hub q

end Sys2Proof.Machine
end

section
/-! SUPPORT. Engine work: words of storage after a write, reservations and the store buffer, code RAM through a window, the places a waiting record
takes, what the start of a run leaves, and the statement EngineWork assembled from them. -/

namespace Sys2Proof.Machine

/-! ### Words of storage -/

theorem bytesOf_succ (n v : Nat) : bytesOf (n + 1) v = BitVec.ofNat 8 v :: bytesOf n (v / 256) := by
  rw [bytesOf, List.range_succ_eq_map, List.map_cons, List.map_map]
  refine congrArg _ (List.map_congr_left fun i _ => ?_)
  simp only [Function.comp_apply, Nat.shiftRight_eq_div_pow, Nat.div_div_eq_div_mul]
  rw [Nat.mul_succ, Nat.pow_add, Nat.mul_comm]

/-- The bytes of a number give it back, as far as there are bytes. -/
theorem ofBytes_bytesOf (n v : Nat) : ofBytes (bytesOf n v) = v % 256 ^ n := by
  induction n generalizing v with
  | zero => simp [bytesOf, ofBytes, Nat.mod_one]
  | succ n ih =>
    have hp : 256 ^ (n + 1) = 256 * 256 ^ n := Nat.pow_succ'
    rw [bytesOf_succ, ofBytes, ih, BitVec.toNat_ofNat, hp, Nat.mod_mul]

@[simp] theorem length_bytesOf (n v : Nat) : (bytesOf n v).length = n := by simp [bytesOf]

theorem load_store_same (s : State) (a : Nat) (bs : List Byte) : (s.store a bs).load a bs.length = bs := by
  refine List.ext_getElem (by simp [State.load, memBytes]) fun i _ hi => ?_
  simp [State.load, memBytes, State.store, memGet_memPutAll_inside _ _ _ _ hi, hi]

theorem load_store_other (s : State) {a b n : Nat} {bs : List Byte} (h : b + n ≤ a ∨ a + bs.length ≤ b) :
    (s.store a bs).load b n = s.load b n := by
  refine List.map_congr_left fun i hi => ?_
  have := List.mem_range.mp hi
  exact memGet_memPutAll_other _ _ _ _ (by omega)

theorem commonsWord_store_same (s : State) (a v : Nat) : (s.store a (bytesOf 2 v)).commonsWord a = v % 65536 := by
  have h := load_store_same s a (bytesOf 2 v)
  rw [length_bytesOf] at h
  rw [State.commonsWord, h]
  exact ofBytes_bytesOf 2 v

theorem commonsWord_store_other (s : State) {a b : Nat} {bs : List Byte} (h : b + 2 ≤ a ∨ a + bs.length ≤ b) :
    (s.store a bs).commonsWord b = s.commonsWord b := by
  rw [State.commonsWord, load_store_other s h, State.commonsWord]

/-! ### Reservations and the store buffer (R241, R247) -/

/-- What holds of a hub, and is kept when an engine other than one is set, still holds once all reservations but that engine's have ended. -/
theorem endReservations_keeps {P : Hub → Prop} {h : Hub} (granule : Nat) {by_ : Nat} (h0 : P h)
    (hset : ∀ g k x, k ≠ by_ → P g → P (g.setEng k x)) : P (h.endReservations granule by_) := by
  refine List.foldlRecOn (motive := P) h.engines _ h0 fun g hg x _ => ?_
  split
  next hx => exact hset g _ _ hx.1 hg
  · exact hg

theorem endReservations_changes (h : Hub) (granule by_ : Nat) : ∃ es, h.endReservations granule by_ = { h with engines := es } := by
  refine endReservations_keeps (P := fun g => ∃ es, g = { h with engines := es }) granule ⟨h.engines, rfl⟩ ?_
  rintro _ k x - ⟨es, rfl⟩
  exact ⟨_, rfl⟩

theorem endReservations_eng_own (h : Hub) (granule e : Nat) : (h.endReservations granule e).eng e = h.eng e :=
  endReservations_keeps (P := fun g => g.eng e = h.eng e) granule rfl fun g _ x hk hg => (setEng_eng_other g _ _ x hk.symm).trans hg

theorem foldl_endReservations_changes (by_ : Nat) (l : List Nat) (h : Hub) :
    ∃ es, l.foldl (fun (g : Hub) a => g.endReservations a by_) h = { h with engines := es } := by
  induction l generalizing h with
  | nil => exact ⟨h.engines, rfl⟩
  | cons a l ih =>
    obtain ⟨es, he⟩ := endReservations_changes h a by_
    rw [List.foldl_cons, he]
    exact ih _

theorem windowBase_le_dataAddr (e w : Nat) : windowBase ≤ dataAddr e w := by
  unfold dataAddr windowBase colBase
  split <;> omega

/-- Nothing below the engine windows is written by a store to data RAM. -/
theorem commonsWord_ramStore (e a : Nat) (ha : a + 2 ≤ windowBase) (l : List Half) :
    ∀ (s : State) (w : Nat), (s.ramStore e w l).commonsWord a = s.commonsWord a := by
  induction l with
  | nil => intro s w; rfl
  | cons x l ih =>
    intro s w
    exact (ih _ _).trans (commonsWord_store_other s (.inl (ha.trans (windowBase_le_dataAddr e w))))

theorem drainStore_none {s : State} {e : Nat} (hx : (s.hub.eng e).sbuf = none) : s.drainStore e = s := by
  rw [State.drainStore, hx]

theorem drainStore_some {s : State} {e a : Nat} {ws : List Half} (hx : (s.hub.eng e).sbuf = some (a, ws)) :
    s.drainStore e = (s.ramStore e a ws).withHub (s.hub.setEng e { s.hub.eng e with sbuf := none }) := by
  rw [State.drainStore, hx]
  dsimp only
  rw [State.mapHub, ramStore_hub]

theorem drainStore_eng_same (s : State) (e : Nat) : (s.drainStore e).hub.eng e = { s.hub.eng e with sbuf := none } := by
  cases hx : (s.hub.eng e).sbuf with
  | none => rw [drainStore_none hx, ← hx]
  | some b => rw [drainStore_some hx, setEng_eng_same]

theorem drainStore_eng_other (s : State) {e k : Nat} (hk : k ≠ e) : (s.drainStore e).hub.eng k = s.hub.eng k := by
  cases hx : (s.hub.eng e).sbuf with
  | none => rw [drainStore_none hx]
  | some b => rw [drainStore_some hx, setEng_eng_other _ _ _ _ hk]

theorem commonsWord_drainStore (s : State) (e : Nat) {a : Nat} (ha : a + 2 ≤ windowBase) :
    (s.drainStore e).commonsWord a = s.commonsWord a := by
  cases hx : (s.hub.eng e).sbuf with
  | none => rw [drainStore_none hx]
  | some b =>
    rw [drainStore_some hx]
    exact commonsWord_ramStore e a ha b.2 s b.1

/-! ### Code RAM through a window (R243) -/

section
variable {s t : State} {b : Initiator} {e o sid : Nat}

theorem exec_codeRamWrite_of {v : Word} (he : e < 72) (ho : o < 0x8000) (hw : s.windowWrite e (o / 4 * 4) v = t) (ht : t.hub.sysq = []) :
    exec (.codeRamWrite b (0x04000000 + 0x10000 * e + o) v) s = .next t := by
  have hidx : (0x04000000 + 0x10000 * e + o - windowBase) / 0x10000 = e := by unfold windowBase; omega
  have hoff : (0x04000000 + 0x10000 * e + o - windowBase) % 0x10000 = o := by unfold windowBase; omega
  have hbase : windowBase ≤ 0x04000000 + 0x10000 * e + o := by unfold windowBase; omega
  show execCodeRamWrite b _ v s = _
  rw [execCodeRamWrite, hidx, hoff, if_pos ⟨hbase, he, ho⟩, hw, settle_none t ht]

/-- While an engine is in RESET, HALTED or RETIRED a word of its code RAM is stored. -/
theorem windowWrite_stopped (ho : o < 0x8000) (v : Word)
    (hst : (s.hub.eng e).st = .reset ∨ (s.hub.eng e).st = .halted ∨ (s.hub.eng e).st = .retired) :
    s.windowWrite e o v = s.store (0x04000000 + 0x10000 * e + o) (bytesOf 4 v.toNat) := by
  rw [State.windowWrite, if_pos ho]
  exact if_pos hst

/-- In every other state it is discarded, with BUSY. -/
theorem windowWrite_busy (ho : o < 0x8000) (v : Word)
    (hst : ¬ ((s.hub.eng e).st = .reset ∨ (s.hub.eng e).st = .halted ∨ (s.hub.eng e).st = .retired)) :
    s.windowWrite e o v = s.withHub (s.hub.flag (engErr e) 3 0) := by
  rw [State.windowWrite, if_pos ho]
  exact if_neg hst

theorem regionOf_window (he : e < 72) (ho : o < 0xC000) : regionOf (0x04000000 + 0x10000 * e + o) = .window e o := by
  have hidx : (0x04000000 + 0x10000 * e + o - windowBase) / 0x10000 = e := by unfold windowBase; omega
  have hoff : (0x04000000 + 0x10000 * e + o - windowBase) % 0x10000 = o := by unfold windowBase; omega
  unfold regionOf
  rw [if_neg, if_neg, if_pos, hidx, hoff, if_pos ho]
  all_goals (simp only [sramBase, commonsBase, windowBase]; omega)

theorem windowByte_code (ho : o < 0x8000) : s.windowByte e o = memGet s.mem (0x04000000 + 0x10000 * s.hub.mirror e + o) := by
  rw [State.windowByte, if_pos ho]
  rfl

/-- A read of code RAM gives its bytes in storage; a shadow's window shows its live engine's (R243, R284). -/
theorem fabricRead_codeRam (he : e < 72) (ho : o + 4 ≤ 0x8000) : s.fabricRead b (0x04000000 + 0x10000 * e + o) 4 =
    (ofBytes (s.load (0x04000000 + 0x10000 * s.hub.mirror e + o) 4), s) := by
  have hf : s.hub.blocked (0x04000000 + 0x10000 * e + o) = false := blocked_outside _ (.inr (by omega))
  have hbytes : (List.range 4).map (fun i => s.windowByte e (o + i)) = s.load (0x04000000 + 0x10000 * s.hub.mirror e + o) 4 := by
    unfold State.load memBytes
    refine List.map_congr_left fun i hi => ?_
    have := List.mem_range.mp hi
    rw [windowByte_code (by omega), ← Nat.add_assoc]
  simp only [State.fabricRead, not_refused (.inl hf), regionOf_window he (by omega : o < 0xC000), hbytes]
  rfl

/-! ### Dispatch (R254, R294) -/

theorem exec_dispatch_of (hd : s.dispatch sid = t) (ht : t.hub.sysq = []) : exec (.dispatch sid) s = .next t := by
  show Host.Outcome.next (s.dispatch sid).settle = _
  rw [hd, settle_none t ht]

theorem dispatch_nothing (hf : s.hub.flight.find? (waitsTask sid) = none) : s.dispatch sid = s := by
  rw [State.dispatch, hf]

/-- A stream keeps the home that can host its task. -/
theorem homeOf_of_canHost {h : Hub} (hh : (h.strm sid).home = some e) (hc : h.canHost e (h.taskId sid) = true) : h.homeOf sid = (some e, h) := by
  have hkeep : (h.strm sid).home.filter (fun e => h.canHost e (h.taskId sid)) = some e := by simp [hh, hc]
  simp only [Hub.homeOf, hkeep]

/-- A stream with no more than 4 records waiting loses none. -/
theorem holdOrDrop_few {h : Hub} (hn : (h.flight.filter (waitsTask sid)).length ≤ 4) : h.holdOrDrop sid = h := if_pos hn

/-- The record that waits is one of the stream's, and its stage says whether it is a re-run. -/
theorem stage_of_waitsTask {f : Flight} (hf : waitsTask sid f = true) : f.sid = sid ∧ f.stage = .toTask (decide (f.stage = .toTask true)) := by
  obtain ⟨hsid, hstage⟩ := (Bool.and_eq_true _ _).mp hf
  refine ⟨eq_of_beq hsid, ?_⟩
  split at hstage
  next r hr => cases r <;> simp [hr]
  · cases hstage

end

/-! The places a waiting record takes: f is the oldest of its stream's, whose home is engine e. -/

section
variable {s : State} {e sid : Nat} {f : Flight}

/-- The records in flight once f is in its task. -/
def Hub.placed (h : Hub) (f : Flight) : List Flight := markFlight f.sid f.seq (fun g => { g with stage := .inTask }) h.flight

theorem dispatch_queued (hf : s.hub.flight.find? (waitsTask sid) = some f) (hh : s.hub.homeOf sid = (some e, s.hub))
    (hst : s.hub.rp.stealing = false) (hroom : (s.hub.eng e).queue.length < 8) :
    s.dispatch sid = s.withHub (({ s.hub with flight := s.hub.placed f } : Hub).setEng e
      { s.hub.eng e with queue := (s.hub.eng e).queue ++ [{ sid := sid, seq := f.seq, rerun := decide (f.stage = .toTask true) }] }) := by
  obtain ⟨-, hstage⟩ := stage_of_waitsTask (List.find?_some hf)
  have hroom' : ¬ 8 ≤ (s.hub.eng e).queue.length := by omega
  generalize decide (f.stage = .toTask true) = r at hstage ⊢
  simp only [State.dispatch, hf, hh, hstage, hst, Bool.false_eq_true, if_false, ge_iff_le, hroom']
  rfl

/-- In STEALING the descriptor is written at BOTTOM, which then rises; the reservations on both end. -/
theorem dispatch_pushed (hf : s.hub.flight.find? (waitsTask sid) = some f) (hh : s.hub.homeOf sid = (some e, s.hub))
    (hst : s.hub.rp.stealing = true) (hroom : s.dequeLen e < 64) :
    ∃ es, s.dispatch sid = ((s.withHub { s.hub with flight := s.hub.placed f, engines := es }).store (dequeSlot e (s.dequeBottom e))
      (descriptor f.rcd sid (decide (f.stage = .toTask true)) (s.hub.taskId sid) f.seq)).store (dequeHead e + 2)
        (bytesOf 2 (s.dequeBottom e + 1)) := by
  obtain ⟨-, hstage⟩ := stage_of_waitsTask (List.find?_some hf)
  have hroom' : ¬ 64 ≤ s.dequeLen e := by omega
  generalize decide (f.stage = .toTask true) = r at hstage ⊢
  obtain ⟨es, hes⟩ := foldl_endReservations_changes 73
    [dequeHead e, dequeSlot e (s.dequeBottom e), dequeSlot e (s.dequeBottom e) + 8, dequeSlot e (s.dequeBottom e) + 16,
      dequeSlot e (s.dequeBottom e) + 24] { s.hub with flight := s.hub.placed f }
  refine ⟨es, ?_⟩
  simp only [State.dispatch, hf, hh, hstage, hst, if_true, ge_iff_le, hroom', if_false]
  rw [← Hub.placed, hes]

/-- With its place full the record waits. -/
theorem dispatch_full (hf : s.hub.flight.find? (waitsTask sid) = some f) (hh : s.hub.homeOf sid = (some e, s.hub))
    (hfull : if s.hub.rp.stealing = true then 64 ≤ s.dequeLen e else 8 ≤ (s.hub.eng e).queue.length)
    (hfew : (s.hub.flight.filter (waitsTask sid)).length ≤ 4) : s.dispatch sid = s := by
  simp only [State.dispatch, hf, hh, holdOrDrop_few hfew]
  split
  next hst =>
    rw [if_pos hst] at hfull
    exact if_pos hfull
  next hst =>
    rw [if_neg hst] at hfull
    exact if_pos hfull

end

/-! ### The start of a run (R254, R255) -/

/-- Engine x as the run of an entry leaves it at its start, from a slot's word: its store buffer has been drained. -/
def Engine.begun (x : Engine) (word : Word) (d : DispatchEntry) (id : Nat) : Engine :=
  { x with st := .task, stack := [], pred := 1, pc := BitVec.ofNat 18 (bits word 0 15), sr := putBit (putBit x.sr srIE true) srIH false,
           res := none, run := some { entry := d, used := 0, budget := 256 * bits word 24 8 }, task := BitVec.ofNat 8 id,
           sid := BitVec.ofNat 8 d.sid, sbuf := none }

/-- The exchange area a run finds in its data RAM (R255). -/
def exchangeArea (r : Record) (d : DispatchEntry) (first : Bool) (id : Nat) : List Byte :=
  recordBytes r ++ bytesOf 2 (d.sid + first.toNat * 256 + d.rerun.toNat * 512) ++ bytesOf 2 id ++ bytesOf 4 (d.seq.toNat % 2 ^ 32) ++
    bytesOf 8 0 ++ recordBytes r

/-- A bit of SR that is put reads so, and the others are as before. -/
theorem getLsbD_putBit (w : Half) (i : Nat) (v : Bool) {k : Nat} (hk : k < 16) :
    (putBit w i v).getLsbD k = if k = i then v else w.getLsbD k := by
  have hbit : (BitVec.ofNat 16 (2 ^ i)).getLsbD k = decide (k = i) := by
    simp only [BitVec.getLsbD_ofNat, hk, Nat.testBit_two_pow, decide_true, Bool.true_and, eq_comm]
  cases v
  · show (w &&& ~~~ BitVec.ofNat 16 (2 ^ i)).getLsbD k = _
    rw [BitVec.getLsbD_and, BitVec.getLsbD_not, hbit]
    by_cases hki : k = i <;> simp [hk, hki]
  · show (w ||| BitVec.ofNat 16 (2 ^ i)).getLsbD k = _
    rw [BitVec.getLsbD_or, hbit]
    by_cases hki : k = i <;> simp [hki]

theorem begun_interrupts (x : Engine) (word : Word) (d : DispatchEntry) (id : Nat) : (x.begun word d id).sr.getLsbD 8 = true := by
  show (putBit (putBit x.sr 8 true) 9 false).getLsbD 8 = true
  rw [getLsbD_putBit _ _ _ (by decide), getLsbD_putBit _ _ _ (by decide)]
  rfl

theorem begun_pc (x : Engine) (word : Word) (d : DispatchEntry) (id : Nat) : (x.begun word d id).pc.toNat = bits word 0 15 := by
  have hlt : bits word 0 15 < 2 ^ 15 := Nat.mod_lt _ (by decide)
  show (BitVec.ofNat 18 (bits word 0 15)).toNat = _
  rw [BitVec.toNat_ofNat, Nat.mod_eq_of_lt (by omega)]

theorem pairStarts_changes (h : Hub) (e : Nat) (r : Record) : ∃ p, h.pairStarts e r = { h with rp := p } := by
  unfold Hub.pairStarts
  split
  · exact ⟨_, rfl⟩
  · exact ⟨h.rp, rfl⟩

section
variable (s : State) (e : Nat) (word : Word) (d : DispatchEntry) (r : Record) (id : Nat)

/-- The start of a run readies its engine and the hub, drains the store buffer and writes the exchange area. -/
theorem beginRun_eq : ∃ h : Hub, h.eng e = { (s.hub.eng e).begun word d id with sbuf := (s.hub.eng e).sbuf } ∧
    (∀ k, k ≠ e → h.eng k = s.hub.eng k) ∧ h.sysq = s.hub.sysq ∧ (d.rerun = false → h.regs = s.hub.regs) ∧
    s.beginRun e word d r id = ((s.withHub h).drainStore e).store (dataAddr e 0x1FE0)
      (exchangeArea r d (d.third || (s.hub.strm d.sid).lastEng != some e) id) := by
  obtain ⟨p, hp⟩ : ∃ p, (if d.third then s.hub else s.hub.pairStarts e r) = { s.hub with rp := p } := by
    split
    · exact ⟨s.hub.rp, rfl⟩
    · exact pairStarts_changes s.hub e r
  simp only [State.beginRun, hp]
  refine ⟨_, ?_, ?_, ?_, ?_, rfl⟩
  · cases d.rerun <;> cases d.third <;> exact setEng_eng_same _ _ _
  · intro k hk
    cases d.rerun <;> cases d.third <;> exact setEng_eng_other _ _ _ _ hk
  · cases d.rerun <;> cases d.third <;> rfl
  · rintro hr
    cases d.third <;> simp only [hr] <;> rfl

theorem beginRun_eng_same : (s.beginRun e word d r id).hub.eng e = (s.hub.eng e).begun word d id := by
  obtain ⟨h, hown, -, -, -, hrun⟩ := beginRun_eq s e word d r id
  rw [hrun, store_hub, drainStore_eng_same, hown]
  rfl

theorem beginRun_eng_other {k : Nat} (hk : k ≠ e) : (s.beginRun e word d r id).hub.eng k = s.hub.eng k := by
  obtain ⟨h, -, hothers, -, -, hrun⟩ := beginRun_eq s e word d r id
  rw [hrun, store_hub, drainStore_eng_other _ hk, hothers k hk]

theorem beginRun_sysq : (s.beginRun e word d r id).hub.sysq = s.hub.sysq := by
  obtain ⟨h, -, -, hsysq, -, hrun⟩ := beginRun_eq s e word d r id
  obtain ⟨es, hes⟩ := drainStore_changes (s.withHub h) e
  rw [hrun, store_hub, hes, hsysq]

/-- The registers change with RERUNS alone (R258). -/
theorem beginRun_regs (hd : d.rerun = false) : (s.beginRun e word d r id).hub.regs = s.hub.regs := by
  obtain ⟨h, -, -, -, hregs, hrun⟩ := beginRun_eq s e word d r id
  obtain ⟨es, hes⟩ := drainStore_changes (s.withHub h) e
  rw [hrun, store_hub, hes, hregs hd]

/-- Without a store waiting the exchange area is all that is written. -/
theorem beginRun_mem (hx : (s.hub.eng e).sbuf = none) : (s.beginRun e word d r id).mem =
    (s.store (dataAddr e 0x1FE0) (exchangeArea r d (d.third || (s.hub.strm d.sid).lastEng != some e) id)).mem := by
  obtain ⟨h, hown, -, -, -, hrun⟩ := beginRun_eq s e word d r id
  have hnone : ((s.withHub h).hub.eng e).sbuf = none := (congrArg Engine.sbuf hown).trans hx
  rw [hrun, drainStore_none hnone]
  rfl

/-- The start of a run leaves all that lies below the engine windows. -/
theorem commonsWord_beginRun {a : Nat} (ha : a + 2 ≤ windowBase) : (s.beginRun e word d r id).commonsWord a = s.commonsWord a := by
  obtain ⟨h, -, -, -, -, hrun⟩ := beginRun_eq s e word d r id
  rw [hrun, commonsWord_store_other _ (.inl (ha.trans (windowBase_le_dataAddr _ _))), commonsWord_drainStore _ _ ha]
  rfl

end

/-! ### Where an idle engine finds a run (R254, R259, R294) -/

section
variable {s t : State} {e : Nat}

theorem exec_taskRunStart_of (hd : s.taskStart e = t) (ht : t.hub.sysq = []) : exec (.taskRunStart e) s = .next t := by
  show Host.Outcome.next (s.taskStart e).settle = _
  rw [hd, settle_none t ht]

theorem taskStart_closed (hc : s.hub.canRun e = false) : s.taskStart e = s := by
  simp only [State.taskStart, hc, Bool.not_false, if_true]

theorem taskStart_nothing (ha : (s.hub.eng e).again = []) (hq : (s.hub.eng e).queue = []) (ht : s.dequeTake e = none) : s.taskStart e = s := by
  simp only [State.taskStart, ha, hq, List.append_nil, ht, ite_self]

/-- An entry whose task is in none of the engine's slots stays where it is. -/
theorem taskStart_unslotted {d : DispatchEntry} {rest : List DispatchEntry} (hl : (s.hub.eng e).again ++ (s.hub.eng e).queue = d :: rest)
    (hd : d.third = false) (hs : s.hub.taskSlot e (s.hub.taskId d.sid) = none) : s.taskStart e = s := by
  simp only [State.taskStart, hl, hd, hs, Bool.false_eq_true, if_false, ite_self]

/-- An engine whose first entry starts: the runs it must repeat come before its queue. -/
def Engine.withoutFirst (x : Engine) : Engine :=
  { x with again := x.again.drop 1, queue := if x.again.isEmpty then x.queue.drop 1 else x.queue }

theorem withoutFirst_entries {x : Engine} {d : DispatchEntry} {rest : List DispatchEntry} (hl : x.again ++ x.queue = d :: rest) :
    x.withoutFirst.again ++ x.withoutFirst.queue = rest := by
  cases ha : x.again with
  | nil => simp_all [Engine.withoutFirst]
  | cons y l => simp_all [Engine.withoutFirst]

theorem taskStart_queued {d : DispatchEntry} {rest : List DispatchEntry} {slot : Nat} {f : Flight} (hc : s.hub.canRun e = true)
    (hl : (s.hub.eng e).again ++ (s.hub.eng e).queue = d :: rest) (hd : d.third = false)
    (hs : s.hub.taskSlot e (s.hub.taskId d.sid) = some slot) (hf : s.hub.flight.find? (fun f => f.sid == d.sid && f.seq == d.seq) = some f) :
    s.taskStart e = (s.withHub (s.hub.setEng e (s.hub.eng e).withoutFirst)).beginRun e (s.hub.reg (engReg e (0x80 + 4 * slot))) d f.rcd
      (s.hub.taskId d.sid) := by
  simp only [State.taskStart, hc, hl, hd, hs, hf, Bool.not_true, Bool.false_eq_true, if_false]
  rfl

/-- The engine whose deque is taken from is one of the 72, and the descriptor lies in its slots, which lie past every header (R293). -/
theorem dequeTake_place {k a slot : Nat} (he : e < 72) (ht : s.dequeTake e = some (k, a, slot)) : k < 72 ∧ 0x21C000 ≤ a := by
  have hslot : ∀ j i, 0x21C000 ≤ dequeSlot j i := fun j i => by unfold dequeSlot; omega
  have hturn : ∀ p, s.dequeTurn e = some p → p.1 < 72 ∧ 0x21C000 ≤ p.2 := by
    intro p hp
    unfold State.dequeTurn at hp
    split at hp
    · cases hp
      exact ⟨he, hslot _ _⟩
    · dsimp only at hp
      split at hp
      · cases hp
      · cases hp
        refine ⟨?_, hslot _ _⟩
        refine List.foldlRecOn (motive := fun m => m < 72) _ _ (by decide) fun m hm j hj => ?_
        split
        · exact List.mem_range.mp hj
        · exact hm
  unfold State.dequeTake at ht
  split at ht
  · cases ht
  · split at ht
    · cases ht
    next q b hq =>
      obtain ⟨_, _, heq⟩ := Option.map_eq_some_iff.mp ht
      cases heq
      exact hturn _ hq

/-- A run taken from a deque begins from the descriptor there: its task, and its SID. -/
theorem runDescriptor_eq (s : State) (e slot a : Nat) : ∃ d r, d.sid = s.commonsWord (a + 16) % 256 ∧
    s.runDescriptor e slot a = s.beginRun e (s.hub.reg (engReg e (0x80 + 4 * slot))) d r (s.descriptorTask a) :=
  ⟨_, _, rfl, rfl⟩

theorem runDescriptor_starts (s : State) (e slot a : Nat) :
    let t := s.runDescriptor e slot a
    (t.hub.eng e).st = .task ∧ (t.hub.eng e).task.toNat = s.descriptorTask a ∧ (t.hub.eng e).sid.toNat = s.commonsWord (a + 16) % 256 ∧
      t.hub.sysq = s.hub.sysq ∧ ∀ b, b + 2 ≤ windowBase → t.commonsWord b = s.commonsWord b := by
  obtain ⟨d, r, hsid, hrun⟩ := runDescriptor_eq s e slot a
  dsimp only
  rw [hrun, beginRun_eng_same]
  refine ⟨rfl, ?_, ?_, beginRun_sysq _ _ _ _ _ _, fun b hb => commonsWord_beginRun _ _ _ _ _ _ hb⟩
  · refine (BitVec.toNat_ofNat _ _).trans (Nat.mod_eq_of_lt ?_)
    exact Nat.mod_lt _ (by decide)
  · refine (BitVec.toNat_ofNat _ _).trans ?_
    rw [hsid]
    exact Nat.mod_mod _ _

/-- What is taken from a deque is taken off its header: BOTTOM falls where it is the engine's own, and TOP rises where it is another's; reservations
on the header end. -/
theorem taskStart_taken {k a slot : Nat} (hc : s.hub.canRun e = true) (ha : (s.hub.eng e).again = []) (hq : (s.hub.eng e).queue = [])
    (ht : s.dequeTake e = some (k, a, slot)) : ∃ u p v, s.taskStart e = u.runDescriptor e slot a ∧
      u = (s.withHub (s.hub.endReservations (dequeHead k) e)).store p (bytesOf 2 v) ∧
      (k = e → p = dequeHead e + 2 ∧ v = (s.dequeBottom e + 65535) % 65536) ∧ (k ≠ e → p = dequeHead k ∧ v = s.dequeTop k + 1) := by
  by_cases hk : k = e
  · refine ⟨_, _, _, ?_, rfl, fun _ => ⟨rfl, rfl⟩, fun h => absurd hk h⟩
    simp only [State.taskStart, hc, ha, hq, List.append_nil, ht, Bool.not_true, Bool.false_eq_true, if_false, if_pos hk]
    rfl
  · refine ⟨_, _, _, ?_, rfl, fun h => absurd h hk, fun _ => ⟨rfl, rfl⟩⟩
    simp only [State.taskStart, hc, ha, hq, List.append_nil, ht, Bool.not_true, Bool.false_eq_true, if_false, if_neg hk]
    rfl

/-- The run of a descriptor starts, and its header moves (R294). -/
theorem exec_taskRunStart_taken {k a slot : Nat} (hq : s.hub.sysq = []) (he : e < 72) (hc : s.hub.canRun e = true)
    (hagain : (s.hub.eng e).again = []) (hqueue : (s.hub.eng e).queue = []) (ht : s.dequeTake e = some (k, a, slot)) :
    ∃ t, exec (.taskRunStart e) s = .next t ∧ (t.hub.eng e).st = .task ∧ (t.hub.eng e).task.toNat = s.descriptorTask a ∧
      (t.hub.eng e).sid.toNat = s.commonsWord (a + 16) % 256 ∧
      (k = e → t.dequeBottom e = (s.dequeBottom e + 65535) % 65536) ∧ (k ≠ e → t.dequeTop k = (s.dequeTop k + 1) % 65536) := by
  obtain ⟨hk, hplace⟩ := dequeTake_place he ht
  obtain ⟨u, p, v, hstart, hu, hown, hother⟩ := taskStart_taken hc hagain hqueue ht
  obtain ⟨hst, htask, hsid, hsysq, hcommons⟩ := runDescriptor_starts u e slot a
  have hp : p + 2 ≤ 0x21C000 := by
    by_cases hke : k = e
    · rw [(hown hke).1, dequeHead]; omega
    · rw [(hother hke).1, dequeHead]; omega
  have hdesc : ∀ b, a ≤ b → u.commonsWord b = s.commonsWord b := by
    intro b hb
    rw [hu, commonsWord_store_other _ (.inr (by rw [length_bytesOf]; omega))]
    rfl
  have hhead : (u.runDescriptor e slot a).commonsWord p = v % 65536 := by
    rw [hcommons p (by unfold windowBase; omega), hu, commonsWord_store_same]
  have husysq : u.hub.sysq = [] := by
    obtain ⟨es, hes⟩ := endReservations_changes s.hub (dequeHead k) e
    rw [hu, store_hub, hes]
    exact hq
  refine ⟨_, exec_taskRunStart_of hstart (hsysq.trans husysq), hst, ?_, ?_, fun hke => ?_, fun hke => ?_⟩
  · rw [htask, State.descriptorTask, hdesc _ (by omega), State.descriptorTask]
  · rw [hsid, hdesc _ (by omega)]
  · obtain ⟨hfield, hval⟩ := hown hke
    rw [State.dequeBottom, ← hfield, hhead, hval, Nat.mod_mod]
  · obtain ⟨hfield, hval⟩ := hother hke
    rw [State.dequeTop, ← hfield, hhead, hval]

/-- The run of an engine's first entry starts (R254, R255). -/
theorem exec_taskRunStart_queued {d : DispatchEntry} {rest : List DispatchEntry} {slot : Nat} {f : Flight} (hq : s.hub.sysq = [])
    (hc : s.hub.canRun e = true) (hl : (s.hub.eng e).again ++ (s.hub.eng e).queue = d :: rest) (hd : d.third = false)
    (hs : s.hub.taskSlot e (s.hub.taskId d.sid) = some slot) (hf : s.hub.flight.find? (fun f => f.sid == d.sid && f.seq == d.seq) = some f) :
    ∃ t, exec (.taskRunStart e) s = .next t ∧
      t.hub.eng e = (s.hub.eng e).withoutFirst.begun (s.hub.reg (engReg e (0x80 + 4 * slot))) d (s.hub.taskId d.sid) ∧
      (∀ k, k ≠ e → t.hub.eng k = s.hub.eng k) ∧
      ((s.hub.eng e).sbuf = none → t.mem = (s.store (dataAddr e 0x1FE0)
        (exchangeArea f.rcd d (decide ((s.hub.strm d.sid).lastEng ≠ some e)) (s.hub.taskId d.sid))).mem) ∧
      (d.rerun = false → t.hub.regs = s.hub.regs) := by
  have hstart := taskStart_queued hc hl hd hs hf
  refine ⟨_, exec_taskRunStart_of hstart ?_, ?_, ?_, ?_, ?_⟩
  · exact (beginRun_sysq _ _ _ _ _ _).trans hq
  · rw [beginRun_eng_same, setEng_eng_same]
  · intro k hk
    rw [beginRun_eng_other _ _ _ _ _ _ hk, setEng_eng_other _ _ _ _ hk]
  · intro hx
    have hfirst : (d.third || (s.hub.strm d.sid).lastEng != some e) = decide ((s.hub.strm d.sid).lastEng ≠ some e) := by
      rw [Bool.eq_iff_iff]
      simp [hd]
    have hnone : ((s.hub.setEng e (s.hub.eng e).withoutFirst).eng e).sbuf = none := (congrArg Engine.sbuf (setEng_eng_same _ _ _)).trans hx
    rw [beginRun_mem _ _ _ _ _ _ hnone, ← hfirst]
    rfl
  · intro hr
    rw [beginRun_regs _ _ _ _ _ _ hr, setEng_regs]

end

/-! ### The statement -/

/-- Settles O40: code RAM through the window, the places of a waiting record, and the two places an engine takes a run from, each by its
lemma above. -/
theorem engineWork : Obligations.EngineWork := by
  unfold Obligations.EngineWork
  intro s e hq he x stopped
  refine ⟨?_, ?_, ?_, ?_, ?_, ?_, ?_, ?_, ?_, ?_⟩
  -- code RAM
  · intro b o v ho hst
    exact exec_codeRamWrite_of he ho (windowWrite_stopped (by omega) v hst) hq
  · intro b o v ho hst
    exact exec_codeRamWrite_of he ho (windowWrite_busy (by omega) v hst) hq
  · intro b o ho
    exact exec_rcRead_of le_rfl hq (fabricRead_codeRam he ho)
  -- dispatch
  · intro sid hf
    exact exec_dispatch_of (dispatch_nothing hf) hq
  · intro sid f hf hhome hhost placed rerun full
    have hh := homeOf_of_canHost hhome hhost
    refine ⟨fun hst hroom => ?_, fun hst hroom => ?_, fun hfull hfew => ?_⟩
    · have hroom' : ¬ 8 ≤ (s.hub.eng e).queue.length := by simpa [full, hst] using hroom
      exact exec_dispatch_of (dispatch_queued hf hh hst (by omega)) hq
    · have hroom' : ¬ 64 ≤ s.dequeLen e := by simpa [full, hst] using hroom
      obtain ⟨es, hd⟩ := dispatch_pushed hf hh hst (by omega)
      exact ⟨_, exec_dispatch_of hd hq, rfl, rfl⟩
    · exact exec_dispatch_of (dispatch_full hf hh hfull hfew) hq
  -- the start of a run
  · intro hc
    exact exec_taskRunStart_of (taskStart_closed hc) hq
  · intro hagain hqueue ht
    exact exec_taskRunStart_of (taskStart_nothing hagain hqueue ht) hq
  · intro k a slot hc hagain hqueue ht
    exact exec_taskRunStart_taken hq he hc hagain hqueue ht
  · intro d rest _ hl hd hs
    exact exec_taskRunStart_of (taskStart_unslotted hl hd hs) hq
  · intro d rest slot f hc hl hd hx hs hf
    obtain ⟨t, hrun, hown, hothers, hmem, hregs⟩ := exec_taskRunStart_queued hq hc hl hd hs hf
    refine ⟨t, hrun, ?_, hothers, hmem hx, hregs⟩
    rw [hown]
    refine ⟨withoutFirst_entries hl, rfl, rfl, rfl, begun_pc _ _ _ _, begun_interrupts _ _ _ _, rfl, BitVec.toNat_ofNat _ _, BitVec.toNat_ofNat _ _,
      rfl, rfl⟩

end Sys2Proof.Machine
end

section
/-! SUPPORT. The test access port: what a fabric read leaves, the fields of a DBGACC register, one equation for each kind of Update-DR, and the
statement TestPortCommands assembled from them. -/

namespace Sys2Proof.Machine

/-! ### What a fabric read leaves (R13, R223) -/

theorem parityError_tap (h : Hub) (reg ty inst : Nat) : (h.parityError reg ty inst).tap = h.tap := by
  obtain ⟨es, rs, p, hh⟩ := parityError_changes h reg ty inst
  rw [hh]

theorem popBadStage_tap (h : Hub) (q : Nat) : (h.popBadStage q).tap = h.tap := by
  unfold Hub.popBadStage
  dsimp only
  split
  · rfl
  · exact parityError_tap _ _ _ _

theorem dropBadly_tap (n q : Nat) (h : Hub) : (h.dropBadly n q).tap = h.tap := by
  induction n generalizing h with
  | zero => rfl
  | succ n ih =>
    unfold Hub.dropBadly
    split
    · rfl
    · split
      · rw [ih, popBadStage_tap]
      · rfl

theorem headPop_tap (h : Hub) (q : Nat) : (h.headPop q false).tap = h.tap := by
  have hpop : (h.pop q).2.tap = h.tap := by
    unfold Hub.pop
    dsimp only
    split <;> exact dropBadly_tap _ _ _
  exact hpop

/-- A hub after a read of one of its registers: as it was, with a counter copied, or with an item popped. -/
inductive ReadLeaves (h : Hub) : Hub → Prop
  | same : ReadLeaves h h
  | copied (a : Nat) (v : BitVec 128) : ReadLeaves h (h.copyLow a v)
  | popped (q : Nat) : ReadLeaves h (h.headPop q false)

theorem ReadLeaves.tap_eq {h g : Hub} (hr : ReadLeaves h g) : g.tap = h.tap := by
  cases hr with
  | same => rfl
  | copied => rfl
  | popped q => exact headPop_tap h q

theorem tbRead_leaves (h : Hub) (off : Nat) : ReadLeaves h (h.tbRead off).2 := by
  unfold Hub.tbRead
  split
  case h_2 | h_5 | h_7 => exact .copied _ _
  case h_10 => split <;> exact .same
  all_goals exact .same

theorem ctxRead_leaves (h : Hub) (sid off : Nat) : ReadLeaves h (h.ctxRead sid off).2 := by
  unfold Hub.ctxRead
  split
  case h_2 => exact .copied _ _
  all_goals exact .same

theorem engRead_leaves (h : Hub) (e off : Nat) : ReadLeaves h (h.engRead e off).2 := by
  unfold Hub.engRead
  dsimp only
  split
  case h_4 => exact .copied _ _
  all_goals exact .same

theorem secRead_leaves (s : State) (off : Nat) : ReadLeaves s.hub (s.secRead off).2 := by
  unfold State.secRead
  dsimp only
  split
  case h_2 => exact .copied _ _
  all_goals exact .same

theorem regGet_leaves (s : State) (l : Loc) (a : Nat) : ReadLeaves s.hub (s.regGet l a).2.hub := by
  unfold State.regGet
  split
  case h_3 => exact tbRead_leaves _ _
  case h_15 => exact ctxRead_leaves _ _ _
  case h_23 =>
    split
    · exact .popped _
    · exact .same
  case h_30 => exact secRead_leaves _ _
  case h_32 => exact engRead_leaves _ _ _
  all_goals exact .same

theorem regRead_tap (s : State) (l : Loc) (a : Nat) (m : Word) : (s.regRead l a m).2.hub.tap = s.hub.tap := by
  unfold State.regRead
  dsimp only
  split <;> exact (regGet_leaves _ _ _).tap_eq

theorem refuse_tap (h : Hub) (a : Nat) : (h.refuse a).tap = h.tap := by
  unfold Hub.refuse
  split <;> rfl

theorem fabErr_tap (h : Hub) (k a : Nat) : (h.fabErr k a).tap = h.tap := by
  unfold Hub.fabErr
  split <;> rfl

theorem fabricRead_tap (s : State) (b : Initiator) (a n : Nat) : (s.fabricRead b a n).2.hub.tap = s.hub.tap := by
  unfold State.fabricRead
  split
  · exact refuse_tap _ _
  · split
    · exact regRead_tap _ _ _ _
    · rfl
    · rfl
    · rfl
    · exact fabErr_tap _ _ _

/-! ### The fields of a DBGACC register: OP, ADDR and WDATA (R414) -/

theorem toNat_dbgacc (op : BitVec 2) (a v : Word) : (op ++ a ++ v).toNat = op.toNat * 2 ^ 64 + a.toNat * 2 ^ 32 + v.toNat := by
  rw [BitVec.toNat_append, BitVec.toNat_append, ← Nat.shiftLeft_add_eq_or_of_lt v.isLt, ← Nat.shiftLeft_add_eq_or_of_lt a.isLt,
    Nat.shiftLeft_eq, Nat.shiftLeft_eq]
  ring

theorem dbgacc_op (op : BitVec 2) (a v : Word) : (op ++ a ++ v).toNat / 2 ^ 64 = op.toNat := by
  have := a.isLt
  have := v.isLt
  rw [toNat_dbgacc]
  omega

theorem dbgacc_addr (op : BitVec 2) (a v : Word) : (op ++ a ++ v).toNat / 2 ^ 32 % 2 ^ 32 = a.toNat := by
  have := a.isLt
  have := v.isLt
  rw [toNat_dbgacc]
  omega

theorem dbgacc_data (op : BitVec 2) (a v : Word) : (op ++ a ++ v).toNat % 2 ^ 32 = v.toNat := by
  have := v.isLt
  rw [toNat_dbgacc]
  omega

/-! ### Update-DR (R390, R392, R412, R414) -/

theorem debugOpen_iff (h : Hub) : h.debugOpen = true ↔ h.sec.dbg ≠ 0 ∧ h.pwr.state < 3 := by simp [Hub.debugOpen]

/-- An access is issued at an address: the conditions of R414, with a session open under R391 and R392. -/
def State.issues (s : State) (a : Nat) : Prop := a % 4 = 0 ∧ s.hub.tap.ended = false ∧ s.hub.debugOpen = true

section
variable {s : State} {a v : Word} {op : BitVec 2}

theorem debugAccess_idle {d : BitVec 66} (h : s.hub.tap.ir ≠ 0x10 ∨ d.toNat / 2 ^ 64 = 0) : s.debugAccess d = s := if_pos h

theorem debugAccess_notIssued (hir : s.hub.tap.ir = 0x10) (hop : op ≠ 0) (hbad : op = 3 ∨ ¬ s.issues a.toNat) :
    s.debugAccess (op ++ a ++ v) = s.withHub { s.hub with tap := { s.hub.tap with err := true } } := by
  have hop0 : op.toNat ≠ 0 := fun h => hop (BitVec.eq_of_toNat_eq h)
  have hrefused : op.toNat = 3 ∨ a.toNat % 4 ≠ 0 ∨ s.hub.tap.ended = true ∨ (!s.hub.debugOpen) = true := by
    rcases hbad with rfl | hbad
    · exact .inl rfl
    · by_contra hnone
      refine hbad ?_
      simpa [State.issues] using (not_or.mp hnone).2
  simp only [State.debugAccess, dbgacc_op, dbgacc_addr]
  rw [if_neg (by simp [hir, hop0]), if_pos hrefused]
  rfl

theorem debugAccess_read (hir : s.hub.tap.ir = 0x10) (hgo : s.issues a.toNat) (hst : s.hub.stoppedEngine a.toNat = false) :
    s.debugAccess ((1 : BitVec 2) ++ a ++ v) = (s.fabricRead .debug a.toNat 4).2.mapHub (fun h => h.setTap { h.tap with
      addr := a, err := s.hub.blocked a.toNat || regionOf a.toNat == .unmapped, data := BitVec.ofNat 32 (s.fabricRead .debug a.toNat 4).1 }) := by
  obtain ⟨halign, hended, hopen⟩ := hgo
  simp only [State.debugAccess, dbgacc_op, dbgacc_addr]
  simp [hir, halign, hended, hopen, hst]

theorem debugAccess_write (hir : s.hub.tap.ir = 0x10) (hgo : s.issues a.toNat) (hst : s.hub.stoppedEngine a.toNat = false) :
    s.debugAccess ((2 : BitVec 2) ++ a ++ v) = (s.fabricWrite .debug a.toNat 4 v.toNat).mapHub (fun h => h.setTap { h.tap with
      addr := a, err := s.hub.blocked a.toNat || regionOf a.toNat == .unmapped }) := by
  obtain ⟨halign, hended, hopen⟩ := hgo
  simp only [State.debugAccess, dbgacc_op, dbgacc_addr, dbgacc_data]
  simp [hir, halign, hended, hopen, hst]

/-- Shared SRAM belongs to no engine. -/
theorem stoppedEngine_sram (h : Hub) {n : Nat} (h0 : 0x01000000 ≤ n) (h1 : n < 0x02000000) : h.stoppedEngine n = false := by
  have hpage : ¬ (0x120000 ≤ n ∧ n < 0x124800) := by omega
  have hwindow : ¬ (windowBase ≤ n ∧ n < windowBase + 0x480000) := by unfold windowBase; omega
  simp [Hub.stoppedEngine, hpage, hwindow]

theorem debugAccess_write_sram (hir : s.hub.tap.ir = 0x10) (hgo : s.issues a.toNat) (h0 : 0x01000000 ≤ a.toNat) (h1 : a.toNat < 0x02000000) :
    s.debugAccess ((2 : BitVec 2) ++ a ++ v) =
      (s.withHub { s.hub with tap := { s.hub.tap with addr := a, err := false } }).store a.toNat (bytesOf 4 v.toNat) := by
  rw [debugAccess_write hir hgo (stoppedEngine_sram _ h0 h1), fabricWrite_sram h0 h1, blocked_outside _ (.inr (by omega)), regionOf_sram h0 h1]
  rfl

theorem exec_dbgaccUpdate_of {d : BitVec 66} {t : State} (hd : s.debugAccess d = t) (ht : t.hub.sysq = []) :
    exec (.dbgaccUpdate d) s = .next t := by
  show Host.Outcome.next (s.debugAccess d).settle = _
  rw [hd, settle_none t ht]

theorem exec_dbgaccUpdate_read (hq : s.hub.sysq = []) (hir : s.hub.tap.ir = 0x10) (hgo : s.issues a.toNat)
    (hst : s.hub.stoppedEngine a.toNat = false) : ∃ t, exec (.dbgaccUpdate ((1 : BitVec 2) ++ a ++ v)) s = .next t ∧ t.hub.tap =
      { s.hub.tap with addr := a, err := decide (s.hub.blocked a.toNat = true ∨ regionOf a.toNat = .unmapped),
                       data := BitVec.ofNat 32 (s.fabricRead .debug a.toNat 4).1 } := by
  refine ⟨_, exec_dbgaccUpdate_of (debugAccess_read hir hgo hst) ((fabricRead_sysq s .debug a.toNat 4).trans hq), ?_⟩
  simp only [mapHub_hub, Hub.setTap, fabricRead_tap]
  simp [Bool.decide_or, beq_eq_decide]

/-! ### Update-IR (R409 to R412) -/

/-- A command that is a change of the hub, where no SID 0 record waits or is formed. -/
theorem exec_of_run {c : Instr} {f : Hub → Hub} {g : Hub} (hc : exec c s = s.run f) (hf : f s.hub = g) (hg : g.sysq = []) :
    exec c s = .next (s.withHub g) := by
  rw [hc, run_quiet s f (hf ▸ hg), hf]

theorem pinsFree_iff (h : Hub) : h.pinsFree = true ↔ h.pwr.state < 2 ∧ (h.pwr.entering = false ∨ h.pwr.target ≤ 1) := by
  simp [Hub.pinsFree, Bool.or_eq_true]

theorem exec_bypass_assigned {c : Byte} (hc : c ∈ ([0x00, 0x01, 0x02, 0x03, 0x04, 0x10, 0x11] : List Byte)) : exec (.bypass c) s = .next s :=
  if_pos (List.contains_iff_mem.mpr hc)

theorem exec_bypass_unassigned {c : Byte} (hc : c ∉ ([0x00, 0x01, 0x02, 0x03, 0x04, 0x10, 0x11] : List Byte)) :
    exec (.bypass c) s = s.run (fun h => h.irLoad 0xFF) :=
  if_neg (fun h => hc (List.contains_iff_mem.mp h))

end

/-! ### The statement -/

/-- Settles O60: an instruction is a change of the TAP alone, by cases on what R411 and R412 check; an Update-DR is judged by its fields, and
its fabric access leaves the TAP to it. -/
theorem testPortCommands : Obligations.TestPortCommands := by
  unfold Obligations.TestPortCommands
  intro s hq tap tapAt load refuse free session good blocked
  have hissues (a : Word) : good a ↔ tap.ir = 0x10 ∧ s.issues a.toNat := by
    simp only [good, session, State.issues, debugOpen_iff, tap]
  have hfree : s.hub.pinsFree = true ↔ free := pinsFree_iff _
  have hsession : s.hub.debugOpen = true ↔ session := debugOpen_iff _
  refine ⟨?_, ?_, ?_, ?_, ?_, ?_, ?_, ?_, ?_, ?_, ?_, ?_, ?_, ?_, ?_, ?_, ?_, ?_, ?_, ?_⟩
  -- Test-Logic-Reset and Capture-IR
  · exact exec_of_run rfl rfl hq
  · exact exec_of_run rfl rfl hq
  -- Update-IR
  · intro hf
    have hdrive (k : Byte) : s.hub.irDrive k = s.hub.irLoad k := if_pos (hfree.mpr hf)
    exact ⟨exec_of_run rfl (hdrive 0x00) hq, exec_of_run rfl (hdrive 0x03) hq⟩
  · intro hf
    have hdrive (k : Byte) : s.hub.irDrive k = s.hub.irRefuse := if_neg (mt hfree.mp hf)
    exact ⟨exec_of_run rfl (hdrive 0x00) hq, exec_of_run rfl (hdrive 0x03) hq⟩
  · exact exec_of_run rfl rfl hq
  · exact exec_of_run rfl rfl hq
  · exact exec_of_run rfl rfl hq
  · exact exec_of_run rfl rfl hq
  · exact fun c hc => exec_bypass_assigned hc
  · exact fun c hc => exec_of_run (exec_bypass_unassigned hc) rfl hq
  · exact fun hs => exec_of_run rfl (if_pos (hsession.mpr hs)) hq
  · exact fun hs => exec_of_run rfl (if_neg (mt hsession.mp hs)) hq
  -- Update-DR of DBGACC
  · exact fun d hd => exec_dbgaccUpdate_of (debugAccess_idle hd) hq
  · intro a v op hir hop hbad
    exact exec_dbgaccUpdate_of (debugAccess_notIssued hir hop (hbad.imp_right fun h hgo => h ((hissues a).mpr ⟨hir, hgo⟩))) hq
  · intro a v hgood hst
    obtain ⟨hir, hgo⟩ := (hissues a).mp hgood
    obtain ⟨t, hrun, htap⟩ := exec_dbgaccUpdate_read (v := v) hq hir hgo hst
    refine ⟨t, hrun, ?_⟩
    rw [htap]
    exact ⟨rfl, rfl, rfl, hir⟩
  · intro a v hgood h0 h1
    obtain ⟨hir, hgo⟩ := (hissues a).mp hgood
    exact exec_dbgaccUpdate_of (debugAccess_write_sram hir hgo h0 h1) hq
  -- HEALTHRD and the boundary register
  · exact fun hir => exec_of_run rfl (if_pos hir) hq
  · exact fun hir => exec_of_run rfl (if_neg hir) hq
  · exact fun c hir => exec_of_run rfl (if_pos hir) hq
  · exact fun c h0 h1 => exec_of_run rfl (if_neg (not_or.mpr ⟨h0, h1⟩)) hq

end Sys2Proof.Machine
end
